-- ==== Sys2Proof/Word.lean ====
section
/-! DEFINITION. The word types of the KLD-260 (spec/00_scope.md "Conventions"): bytes of the bus window, two-byte
values, context words and tick counts. -/

namespace Sys2Proof

/-- One byte of the bus window, of a staging list or of a result list. -/
abbrev Byte := BitVec 8

/-- A two-byte quantity: a handle, a message value, a timeout, N. -/
abbrev Half := BitVec 16

/-- A context word, 0..FFFFFFh, opaque (R2). -/
abbrev Context := BitVec 24

/-- A tick count: the tick counter or a deadline (R114, R116). -/
abbrev TickCount := BitVec 32

end Sys2Proof
end

