-- ==== Sys2Proof/Syntax.lean ====
section
/-! DEFINITION. The commands of the KLD-260: one constructor for each row of spec/opcode_table.json, with the row's
operands. Thirty-five rows are the TAKING of a command that a processor has submitted (R165): their operand is the
submitting port, and the code and the parameter bytes are those the port's command unit holds since the CMD write. -/

namespace Sys2Proof

/-- The two processor ports (00 "Block overview"). -/
inductive Port where
  | A
  | B
  deriving DecidableEq, Repr

/-- A task slot; slot number n of the manual, 1..48, is the value n - 1 (R1). -/
abbrev Slot := Fin 48

/-- An event line EV0..EV7 (R130). -/
abbrev Line := Fin 8

/-- The direction of an edge of a settled level (R131). -/
inductive Edge where
  | rising
  | falling
  deriving DecidableEq, Repr

/-- The commands and events of the part, in the order of spec/opcode_table.json. -/
inductive Instr where
  /-- TASK.CREATE submitted on the port is taken (R12). -/
  | taskCreate (port : Port)
  /-- TASK.START is taken (R13). -/
  | taskStart (port : Port)
  /-- TASK.DELETE is taken (R14, R15). -/
  | taskDelete (port : Port)
  /-- TASK.EXIT is taken (R16). -/
  | taskExit (port : Port)
  /-- TASK.HOLD is taken (R17). -/
  | taskHold (port : Port)
  /-- TASK.RELEASE is taken (R18). -/
  | taskRelease (port : Port)
  /-- TASK.SETPRI is taken (R19). -/
  | taskSetpri (port : Port)
  /-- TASK.SETAFF is taken (R20). -/
  | taskSetaff (port : Port)
  /-- TASK.SETCTX is taken (R21). -/
  | taskSetctx (port : Port)
  /-- TASK.QUERY is taken (R22). -/
  | taskQuery (port : Port)
  /-- TASK.SELF is taken (R23). -/
  | taskSelf (port : Port)
  /-- TASK.YIELD is taken (R40). -/
  | taskYield (port : Port)
  /-- TASK.DELAY is taken (R122). -/
  | taskDelay (port : Port)
  /-- XCH.OPEN is taken (R74, R98). -/
  | xchOpen (port : Port)
  /-- XCH.CLOSE is taken (R75, R107). -/
  | xchClose (port : Port)
  /-- XCH.QUERY is taken (R77, R108). -/
  | xchQuery (port : Port)
  /-- MSG.SEND is taken (R84, R85). -/
  | msgSend (port : Port)
  /-- MSG.RECV is taken (R87, R88). -/
  | msgRecv (port : Port)
  /-- CNT.ACQUIRE is taken (R100, R101). -/
  | cntAcquire (port : Port)
  /-- CNT.RELEASE is taken (R102). -/
  | cntRelease (port : Port)
  /-- EVT.CONFIG is taken (R139). -/
  | evtConfig (port : Port)
  /-- EVT.WAIT is taken (R136, R137). -/
  | evtWait (port : Port)
  /-- EVT.QUERY is taken (R140). -/
  | evtQuery (port : Port)
  /-- PAGE.ALLOC is taken (R147, R148). -/
  | pageAlloc (port : Port)
  /-- PAGE.FREE is taken (R153). -/
  | pageFree (port : Port)
  /-- PAGE.GIVE is taken (R154). -/
  | pageGive (port : Port)
  /-- PAGE.QUERY is taken (R157). -/
  | pageQuery (port : Port)
  /-- PAGE.RECLAIM is taken (R155). -/
  | pageReclaim (port : Port)
  /-- PAGE.CONFIG is taken (R146). -/
  | pageConfig (port : Port)
  /-- TIME.CONFIG is taken (R113). -/
  | timeConfig (port : Port)
  /-- TIME.READ is taken (R114). -/
  | timeRead (port : Port)
  /-- PORT.ENABLE is taken (R178). -/
  | portEnable (port : Port)
  /-- PORT.DROP is taken (R179). -/
  | portDrop (port : Port)
  /-- PEER.DROP is taken (R179). -/
  | peerDrop (port : Port)
  /-- DEVICE.RESET is taken (R183). -/
  | deviceReset (port : Port)
  /-- A submitted code that the part does not know is taken (R169). -/
  | badCommand (port : Port)
  /-- A write of a byte to PRM (R163). -/
  | prmWrite (port : Port) (value : Byte)
  /-- A read of PRM (R166). -/
  | prmRead (port : Port)
  /-- A write of a byte to INTP (R171). -/
  | intpWrite (port : Port) (value : Byte)
  /-- A write of a byte to INTE (R172). -/
  | inteWrite (port : Port) (value : Byte)
  /-- A write of a sequence value to ACC (R62, R174). -/
  | accept (port : Port) (value : Byte)
  /-- A write to a location with no write function (R161). -/
  | writeIgnored (port : Port) (location : BitVec 5) (value : Byte)
  /-- Assertion of the port's PRST input (R179). -/
  | prstAssert (port : Port)
  /-- Release of the port's PRST input (R177). -/
  | prstRelease (port : Port)
  /-- Assertion of the RST input (R183). -/
  | rstAssert
  /-- Release of the RST input (R183). -/
  | rstRelease
  /-- An edge is recognised on a line; if the line's edge mode admits it, it is a line event (R132, R133, R134). -/
  | lineEvent (line : Line) (edge : Edge)
  /-- A tick (R118). -/
  | tick
  /-- The expiry of the timer entry of a task (R119, R120). -/
  | expiry (task : Slot)
  /-- The slice expiry of a port's occupant (R61, R124). -/
  | sliceExpiry (port : Port)
  /-- A write of a command code to CMD (R164). -/
  | cmdWrite (port : Port) (code : Byte)
  /-- The sampling of EV0..EV7 at one CLK period; bit n of the levels is the level of EVn (R131). -/
  | lineSample (levels : Byte)
  deriving DecidableEq, Repr

end Sys2Proof
end

