-- ==== Sys2Proof/Decode.lean ====
section
/-! DEFINITION. The command a word of the table spells. No row of spec/opcode_table.json has bits (the rows' "fields"
are empty and there is no match or mask), so no word spells a command. -/

namespace Sys2Proof

/-- The command that a word of `nbits` bits spells by the table's bits: none, since no row gives bits. -/
def decodeTableWord (_nbits _w : Nat) : Option Instr := none

end Sys2Proof
end

