-- ==== Sys2Proof/Config.lean ====
section
/-! DEFINITION. The free values: what the manual leaves open and no proof may know. Each is a constant with no
body, applied to the free-value counter of State, so that every use gets a fresh value (log entry 5). -/

namespace Sys2Proof

/-- DESIGN CHOICE (log entry 8), free value: when slice expiries occur on both ports at one tick, is Port B's taken
first? R125: "Either may be". -/
opaque Config.portBSlicesFirst : Nat → Bool

/-- DESIGN CHOICE (log entry 9), free value: the rank of a line among the edges of one sample; edges are taken in
order of rank, and by line number among equal ranks. R132: "either may be taken first". -/
opaque Config.lineRank : Nat → Line → Nat

/-- DESIGN CHOICE (log entry 2), free value: the settled level a query reports of a line that has not been sampled
since reset. R143 gives the level only from the first sample on. -/
opaque Config.unsampledLevel : Nat → Line → Bool

end Sys2Proof
end

