-- ==== Sys2Proof/Machine/State.lean ====
section
/-! DEFINITION. The state of the KLD-260 as plain data: every record the manual gives the part, block by block, and
the queue of commands waiting to be taken; and the state right after device reset. -/

namespace Sys2Proof.Machine

/-! ### Task records (chapter 1) -/

/-- The seven states of a slot (R5). -/
inductive TaskState where
  | free
  | dormant
  | ready
  | selected
  | running
  | waiting
  | held
  deriving DecidableEq, Repr

/-- Which ports may run a task (R2). -/
inductive Affinity where
  | portA
  | portB
  | either
  deriving DecidableEq, Repr

/-- Why a task is held (R6). -/
inductive HoldCause where
  | command
  | portLost
  deriving DecidableEq, Repr

/-- A message: tag, value and sender, the sender a handle or a port mark (R78). -/
structure Message where
  tag : Byte
  value : Half
  sender : Half
  deriving DecidableEq, Repr

/-- The kind of a wait with its object and the fields that kind needs (R7). An exchange is named by its id. -/
inductive WaitKind where
  | delay
  | recv (exchange low high : Byte)
  | send (exchange : Byte) (message : Message)
  | acquire (exchange : Byte)
  | event (line : Line)
  | pages (count : Nat)
  deriving DecidableEq, Repr

/-- A wait record (R7). An absent deadline means that the task waits until its wait is completed or cancelled. -/
structure WaitRecord where
  kind : WaitKind
  deadline : Option TickCount
  deriving DecidableEq, Repr

/-- The payload of an OK delivery (R8). -/
inductive Payload where
  | none
  | message (m : Message)
  | page (first : Byte)
  deriving DecidableEq, Repr

/-- A delivery record: the outcome of a task's last wait (R8). -/
inductive Delivery where
  | ok (payload : Payload)
  | timeout
  | closed
  | lost
  deriving DecidableEq, Repr

/-- One slot of the Task Table: its generation and its record (R1, R2, R3). -/
structure TaskRecord where
  generation : BitVec 4
  state : TaskState
  priority : Fin 32
  affinity : Affinity
  context : Context
  quantum : Byte
  remaining : Byte
  holdFlag : Bool
  holdCause : Option HoldCause
  wait : Option WaitRecord
  delivery : Option Delivery
  doomed : Bool
  deriving DecidableEq, Repr

/-- A FREE slot of a given generation. DESIGN CHOICE (log entry 1): its fields, which no command can observe (R1),
are blank. -/
def blankTask (generation : BitVec 4) : TaskRecord where
  generation := generation
  state := .free
  priority := 0
  affinity := .either
  context := 0
  quantum := 0
  remaining := 0
  holdFlag := false
  holdCause := none
  wait := none
  delivery := none
  doomed := false

/-! ### Occupancy and offers (chapter 3) -/

/-- The kind of an offer: SWITCH or CONTINUE (R48). -/
inductive OfferKind where
  | switchTask
  | continueTask
  deriving DecidableEq, Repr

/-- A posted offer (R47). An incoming of `none` is IDLE. -/
structure Offer where
  sequence : Byte
  kind : OfferKind
  incoming : Option Slot
  incomingContext : Option Context
  outgoingContext : Option Context
  delivery : Option Delivery
  deriving DecidableEq, Repr

/-- What a departing occupant becomes at accept (R49). -/
inductive Disposition where
  | readyHead
  | readyTail
  | wait
  | held
  | free
  | stay
  deriving DecidableEq, Repr

/-- Accept status (R67). -/
inductive AcceptStatus where
  | none
  | accepted
  | stale
  | busyRefused
  deriving DecidableEq, Repr

/-- A port's occupancy record (R45). The switch state is OFFERED exactly while an offer is posted, so it is the
presence of `offer`. An occupant of `none` is IDLE. -/
structure Occupancy where
  occupant : Option Slot
  offer : Option Offer
  disposition : Option Disposition
  sequence : Byte
  acceptStatus : AcceptStatus
  deriving DecidableEq, Repr

/-! ### Port Units (chapters 9 and 10) -/

/-- A submitted command: the written code and the parameter bytes handed over with it (R164). -/
structure Submission where
  code : Byte
  params : List Byte
  deriving DecidableEq, Repr

/-- A port's command unit and interrupt sets (R163 to R172). The unit is BUSY exactly while it holds a submitted
command, so BUSY is the presence of `command`. -/
structure PortUnit where
  staging : List Byte
  command : Option Submission
  res : Byte
  results : List Byte
  overrun : Bool
  intp : BitVec 4
  inte : BitVec 4
  /-- The byte the last read of PRM drove onto the port's data lines (R166; log entry 4). -/
  dataOut : Byte
  deriving DecidableEq, Repr

/-- The lifecycle state of a port (R177). -/
inductive Lifecycle where
  | disabled
  | enabled
  deriving DecidableEq, Repr

/-- Everything that belongs to one port. `prst` is the level of its PRST input: true while asserted (R161, R177). -/
structure PortRecord where
  lifecycle : Lifecycle
  prst : Bool
  occ : Occupancy
  unit : PortUnit
  deriving DecidableEq, Repr

/-! ### Exchanges (chapters 4 and 5) -/

/-- The order in which waiters join the lists of an exchange (R71, R82). -/
inductive WaiterOrder where
  | arrival
  | urgency
  deriving DecidableEq, Repr

/-- What an OPEN exchange of kind MESSAGE holds (R71). A waiter entry is the task's slot: the filter of a receiver and
the message of a sender are in its wait record (R86, R88). -/
structure Mailbox where
  capacity : Nat
  queue : List Message
  receivers : List Slot
  senders : List Slot
  deriving DecidableEq, Repr

/-- What an OPEN exchange of kind COUNT holds (R97). -/
structure Counter where
  ceiling : Nat
  count : Nat
  acquirers : List Slot
  deriving DecidableEq, Repr

/-- The state of an exchange record (R71). -/
inductive ExchangeState where
  | closed
  | message (order : WaiterOrder) (box : Mailbox)
  | count (order : WaiterOrder) (counter : Counter)
  deriving DecidableEq, Repr

/-- One exchange record (R71). Exchange number n of the manual, 1..16, is index n - 1. -/
structure Exchange where
  generation : BitVec 3
  state : ExchangeState
  deriving DecidableEq, Repr

/-! ### Time (chapter 6) -/

/-- An entry of the timer list (R115). -/
structure TimerEntry where
  task : Slot
  deadline : TickCount
  deriving DecidableEq, Repr

/-- The Tick Unit (R112 to R115). -/
structure TickUnit where
  /-- N as stored by the last TIME.CONFIG: it governs the next tick period (R113). -/
  storedN : Nat
  /-- The N that the tick period in progress began with (R113). -/
  periodN : Nat
  /-- CLK periods of the base interval in progress, 0..199 (R112). -/
  baseDivider : Nat
  /-- Base intervals of the tick period in progress (R112). -/
  intervalCounter : Nat
  /-- The tick counter (R114). -/
  counter : TickCount
  timers : List TimerEntry
  deriving DecidableEq, Repr

/-! ### Event lines (chapter 7) -/

/-- The edge mode of a line (R132). -/
inductive EdgeMode where
  | off
  | rise
  | fall
  | both
  deriving DecidableEq, Repr

/-- The release mode of a line (R133). -/
inductive ReleaseMode where
  | one
  | all
  deriving DecidableEq, Repr

/-- One line record (R130). `sampled` is false from a device reset to the first sample after it, which gives the line
its settled level without an edge (R143). `pendingCount` true is a pending count of 1. -/
structure LineRecord where
  sampled : Bool
  settled : Bool
  pendingCount : Bool
  edgeMode : EdgeMode
  releaseMode : ReleaseMode
  latch : Nat
  saturated : Bool
  waiters : List Slot
  deriving DecidableEq, Repr

/-! ### Page Pool (chapter 8) -/

/-- A run: its first page, its length and its owner (R145). -/
structure Run where
  first : Nat
  length : Nat
  owner : Slot
  deriving DecidableEq, Repr

/-- The Page Pool (R144, R145, R149). A page of the map is free or names the entry of its run. -/
structure PagePool where
  size : Nat
  pageMap : Vector (Option (Fin 64)) 128
  freePages : Nat
  runs : Vector (Option Run) 64
  waitQueue : List Slot
  deriving DecidableEq, Repr

/-! ### The whole part -/

/-- The state of the part. -/
structure State where
  tasks : Vector TaskRecord 48
  queues : Vector (List Slot) 32
  portA : PortRecord
  portB : PortRecord
  exchanges : Vector Exchange 16
  freeCells : Nat
  time : TickUnit
  lines : Vector LineRecord 8
  pool : PagePool
  /-- The level of the RST input: true while asserted (R183). -/
  rst : Bool
  /-- The model's own free-value counter (log entry 5). -/
  draws : Nat
  /-- The commands that wait to be taken, first in first out. -/
  pending : List Instr
  deriving DecidableEq, Repr

/-- Why a step stops. The manual gives no event that stops the part, so there is no fault: every command and event
has a next state. -/
inductive Fault
  deriving DecidableEq, Repr

/-- Why a step is refused by the model. -/
inductive Refusal where
  /-- Raised by an arm of `exec` whose command has no meaning yet, and by no arm of this model. Safe: nothing can be
  proved of a command that is refused. -/
  | notModelled (mnemonic : String)
  deriving DecidableEq, Repr

/-- The result of a command as its rule gives it (R170). -/
inductive Result where
  | ok
  | waiting
  | badCommand
  | paramCount
  | badParam
  | staleHandle
  | staleExchange
  | wrongState
  | wrongKind
  | noCaller
  | departing
  | callerGone
  | noSlot
  | noCells
  | noExchange
  | full
  | empty
  | ceiling
  | noPages
  | noRuns
  | notOwner
  | notRun
  | peerActive
  deriving DecidableEq, Repr

/-- What carrying out or refusing a command leaves: the records, the result code and the result bytes (R165). -/
structure Reply where
  state : State
  result : Result
  bytes : List Byte
  deriving DecidableEq, Repr

/-! ### Reset values -/

/-- The occupancy record after device reset (R70). -/
def resetOccupancy : Occupancy where
  occupant := none
  offer := none
  disposition := none
  sequence := 0
  acceptStatus := .none

/-- The Port Unit after device reset (R176). -/
def resetUnit : PortUnit where
  staging := []
  command := none
  res := 0
  results := []
  overrun := false
  intp := 0
  inte := 0
  dataOut := 0

/-- A port after device reset (R70, R176, R177), its PRST input released (log entry 3). -/
def resetPort : PortRecord where
  lifecycle := .disabled
  prst := false
  occ := resetOccupancy
  unit := resetUnit

/-- The Tick Unit after device reset (R129). -/
def resetTime : TickUnit where
  storedN := 100
  periodN := 100
  baseDivider := 0
  intervalCounter := 0
  counter := 0
  timers := []

/-- A line record after device reset (R143). The settled level is taken from the first sample; until then the stored
level is a DESIGN CHOICE that no command shows (log entry 2). -/
def resetLine : LineRecord where
  sampled := false
  settled := false
  pendingCount := false
  edgeMode := .off
  releaseMode := .one
  latch := 0
  saturated := false
  waiters := []

/-- The Page Pool after device reset (R160). -/
def resetPool : PagePool where
  size := 128
  pageMap := Vector.replicate 128 none
  freePages := 128
  runs := Vector.replicate 64 none
  waitQueue := []

/-- The part right after device reset (R183), with nothing waiting to be taken. -/
def State.reset : State where
  tasks := Vector.replicate 48 (blankTask 0)
  queues := Vector.replicate 32 []
  portA := resetPort
  portB := resetPort
  exchanges := Vector.replicate 16 ⟨0, .closed⟩
  freeCells := 64
  time := resetTime
  lines := Vector.replicate 8 resetLine
  pool := resetPool
  rst := false
  draws := 0
  pending := []

end Sys2Proof.Machine
end

