-- ==== Sys2Proof/Machine/Flags.lean ====
section
/-! DEFINITION. The codes and flags the window shows: result codes, accept status, interrupt causes and the STAT bits'
parts (chapter 9). -/

namespace Sys2Proof.Machine

/-- The code RES shows for a result (R170). -/
def Result.code : Result → Byte
  | .ok => 0x00
  | .waiting => 0x01
  | .badCommand => 0x10
  | .paramCount => 0x11
  | .badParam => 0x12
  | .staleHandle => 0x13
  | .staleExchange => 0x14
  | .wrongState => 0x15
  | .wrongKind => 0x16
  | .noCaller => 0x17
  | .departing => 0x18
  | .callerGone => 0x19
  | .noSlot => 0x20
  | .noCells => 0x21
  | .noExchange => 0x22
  | .full => 0x23
  | .empty => 0x24
  | .ceiling => 0x25
  | .noPages => 0x26
  | .noRuns => 0x27
  | .notOwner => 0x28
  | .notRun => 0x29
  | .peerActive => 0x2A

/-- The code ASTAT shows (R67, R161). -/
def AcceptStatus.code : AcceptStatus → Byte
  | .none => 0
  | .accepted => 1
  | .stale => 2
  | .busyRefused => 3

/-- The code OKND shows for an offer (R161). -/
def OfferKind.code : OfferKind → Byte
  | .switchTask => 1
  | .continueTask => 2

/-- The delivery code the offer window shows (R161). -/
def Delivery.code : Delivery → Byte
  | .ok _ => 1
  | .timeout => 2
  | .closed => 3
  | .lost => 4

/-- The state code TASK.QUERY returns (R5, R22). -/
def TaskState.code : TaskState → Byte
  | .free => 0
  | .dormant => 1
  | .ready => 2
  | .selected => 3
  | .running => 4
  | .waiting => 5
  | .held => 6

/-- The affinity code (R12, R22). -/
def Affinity.code : Affinity → Byte
  | .portA => 1
  | .portB => 2
  | .either => 3

/-- The hold cause TASK.QUERY returns in HELD (R22). -/
def HoldCause.code : HoldCause → Byte
  | .command => 1
  | .portLost => 2

/-- The port number TASK.QUERY returns (R22). -/
def portCode : Port → Byte
  | .A => 1
  | .B => 2

/-- The wait kind TASK.QUERY returns (R22). -/
def WaitKind.code : WaitKind → Byte
  | .delay => 1
  | .recv _ _ _ => 2
  | .send _ _ => 3
  | .acquire _ => 4
  | .event _ => 5
  | .pages _ => 6

/-- The wait object TASK.QUERY returns (R22). -/
def WaitKind.object : WaitKind → Byte
  | .delay => 0
  | .recv x _ _ => x
  | .send x _ => x
  | .acquire x => x
  | .event l => BitVec.ofNat 8 l.val
  | .pages n => BitVec.ofNat 8 n

/-- The waiter order code (R74, R77). -/
def WaiterOrder.code : WaiterOrder → Byte
  | .arrival => 1
  | .urgency => 2

/-- The edge mode code (R139, R140). -/
def EdgeMode.code : EdgeMode → Byte
  | .off => 0
  | .rise => 1
  | .fall => 2
  | .both => 3

/-- The release mode code (R139, R140). -/
def ReleaseMode.code : ReleaseMode → Byte
  | .one => 1
  | .all => 2

/-- A flag as a byte: 1 set, 0 clear. -/
def flagByte (b : Bool) : Byte := if b then 1 else 0

/-- The four interrupt causes (R171). -/
inductive Cause where
  | offer
  | done
  | peerDown
  | peerUp
  deriving DecidableEq, Repr

/-- The bit of a cause in INTP and INTE (R161, R171). -/
def Cause.mask : Cause → BitVec 4
  | .offer => 0b0001
  | .done => 0b0010
  | .peerDown => 0b0100
  | .peerUp => 0b1000

/-- A port on which a cause becomes pending; while its PRST is asserted no cause does (R171). -/
def PortRecord.raise (c : Cause) (r : PortRecord) : PortRecord :=
  if r.prst then r else { r with unit := { r.unit with intp := r.unit.intp ||| c.mask } }

/-- A port on which a cause is cleared (R171). -/
def PortRecord.clear (c : Cause) (r : PortRecord) : PortRecord :=
  { r with unit := { r.unit with intp := r.unit.intp &&& ~~~c.mask } }

/-- Is the port's interrupt output, INTA or INTB, driven low? It is while some cause is pending and enabled
(R172). -/
def PortRecord.interruptDriven (r : PortRecord) : Bool := (r.unit.intp &&& r.unit.inte) != 0

/-- BUSY: the command unit holds a submitted command (R162, R164). -/
def PortRecord.busy (r : PortRecord) : Bool := r.unit.command.isSome

/-- OFFERED: an offer is posted (R45, R162). -/
def PortRecord.offered (r : PortRecord) : Bool := r.occ.offer.isSome

/-- ENABLED (R162, R177). -/
def PortRecord.isEnabled (r : PortRecord) : Bool := r.lifecycle == .enabled

/-- Does the edge mode admit the edge as a line event? (R132) -/
def EdgeMode.admits : EdgeMode → Edge → Bool
  | .off, _ => false
  | .rise, .rising => true
  | .rise, .falling => false
  | .fall, .rising => false
  | .fall, .falling => true
  | .both, _ => true

/-- The settled level an edge leads to (R131). -/
def edgeLevel : Edge → Bool
  | .rising => true
  | .falling => false

end Sys2Proof.Machine
end

