-- ==== Sys2Proof/Machine/Ops.lean ====
section
/-! DEFINITION. The accessors of the state and the named operations over one block's records: tasks, ready queues,
ports, exchanges, the timer list. What several blocks do together is in Dispatcher, Waits, Pool and Lifecycle. -/

namespace Sys2Proof.Machine

/-! ### Tasks -/

/-- The record of a slot. -/
def State.task (s : State) (t : Slot) : TaskRecord := s.tasks[t]

/-- Change the record of a slot. -/
def State.updTask (s : State) (t : Slot) (f : TaskRecord → TaskRecord) : State :=
  { s with tasks := s.tasks.set t (f (s.task t)) }

/-- Change the state of a slot's task. -/
def State.setTaskState (s : State) (t : Slot) (st : TaskState) : State :=
  s.updTask t fun r => { r with state := st }

/-! ### Ports -/

/-- The other port. -/
def otherPort : Port → Port
  | .A => .B
  | .B => .A

/-- The record of a port. -/
def State.port (s : State) : Port → PortRecord
  | .A => s.portA
  | .B => s.portB

/-- Change the record of a port. -/
def State.updPort (s : State) (p : Port) (f : PortRecord → PortRecord) : State :=
  match p with
  | .A => { s with portA := f s.portA }
  | .B => { s with portB := f s.portB }

/-- Change the occupancy record of a port. -/
def State.updOcc (s : State) (p : Port) (f : Occupancy → Occupancy) : State :=
  s.updPort p fun r => { r with occ := f r.occ }

/-- Change the Port Unit of a port. -/
def State.updUnit (s : State) (p : Port) (f : PortUnit → PortUnit) : State :=
  s.updPort p fun r => { r with unit := f r.unit }

/-- A cause becomes pending on a port (R171). -/
def State.raise (s : State) (p : Port) (c : Cause) : State := s.updPort p (·.raise c)

/-- Give the occupant of a port a disposition. -/
def State.setDisposition (s : State) (p : Port) (d : Disposition) : State :=
  s.updOcc p fun o => { o with disposition := some d }

/-- Does the port's window take accesses? Not while its PRST (R161) or the RST input (R183) is asserted. -/
def State.windowOpen (s : State) (p : Port) : Bool := !(s.port p).prst && !s.rst

/-- The port whose occupant is the task (R45: a RUNNING task is the occupant of exactly one port). -/
def State.portOfOccupant (s : State) (t : Slot) : Option Port :=
  if s.portA.occ.occupant = some t then some .A
  else if s.portB.occ.occupant = some t then some .B
  else none

/-- Is the task the incoming of the port's posted SWITCH offer? (R47) -/
def State.isIncoming (s : State) (p : Port) (t : Slot) : Bool :=
  match (s.port p).occ.offer with
  | some o => o.kind == .switchTask && o.incoming == some t
  | none => false

/-- The port whose offer names the SELECTED task as incoming (R47: exactly one). -/
def State.portOfIncoming (s : State) (t : Slot) : Option Port :=
  if s.isIncoming .A t then some .A
  else if s.isIncoming .B t then some .B
  else none

/-! ### Ready queues (R29 to R31) -/

/-- The ready queue of a level. -/
def State.queue (s : State) (level : Fin 32) : List Slot := s.queues[level]

/-- Change the ready queue of a level. -/
def State.updQueue (s : State) (level : Fin 32) (f : List Slot → List Slot) : State :=
  { s with queues := s.queues.set level (f (s.queue level)) }

/-- Take a task out of the queue of its priority, the rest keeping their order (R31). -/
def unqueue (t : Slot) (s : State) : State :=
  s.updQueue (s.task t).priority (·.erase t)

/-- The task becomes READY at the tail of the queue of its priority (R30). -/
def enterTail (t : Slot) (s : State) : State :=
  (s.updQueue (s.task t).priority (· ++ [t])).setTaskState t .ready

/-- The task becomes READY at the head of the queue of its priority (R30). -/
def enterHead (t : Slot) (s : State) : State :=
  (s.updQueue (s.task t).priority (t :: ·)).setTaskState t .ready

/-! ### Timer list (R115, R116) -/

/-- The remaining count of a deadline: the deadline less the tick counter, modulo 2^32 (R116). -/
def remainingCount (counter deadline : TickCount) : Nat := (deadline - counter).toNat

/-- Insert an entry behind every entry whose remaining count is less than or equal to its own (R116). -/
def insertEntry (counter : TickCount) (e : TimerEntry) (l : List TimerEntry) : List TimerEntry :=
  let before := fun f : TimerEntry => decide (remainingCount counter f.deadline ≤ remainingCount counter e.deadline)
  l.takeWhile before ++ e :: l.dropWhile before

/-- Give a task a timer entry, if its wait has a deadline (R7, R115). -/
def insertTimer (t : Slot) (deadline : Option TickCount) (s : State) : State :=
  match deadline with
  | none => s
  | some d => { s with time := { s.time with timers := insertEntry s.time.counter ⟨t, d⟩ s.time.timers } }

/-- Remove the timer entry of a task (R117). -/
def removeTimer (t : Slot) (s : State) : State :=
  { s with time := { s.time with timers := s.time.timers.filter (·.task != t) } }

/-! ### Exchanges and waiter lists -/

/-- The exchange record of an index. -/
def State.exchange (s : State) (x : Fin 16) : Exchange := s.exchanges[x]

/-- Change the state of an exchange record. -/
def State.setExchange (s : State) (x : Fin 16) (e : ExchangeState) : State :=
  { s with exchanges := s.exchanges.set x { s.exchange x with state := e } }

/-- The index of the exchange an id names: none when the id is malformed (R72). -/
def exchangeIndex (id : Byte) : Option (Fin 16) :=
  if h : 1 ≤ id.toNat % 32 ∧ id.toNat % 32 ≤ 16 then some ⟨id.toNat % 32 - 1, by omega⟩ else none

/-- Insert a task into a waiter list at the position the waiter order gives: at the tail in ARRIVAL order; in URGENCY
order behind every entry of the same or a more urgent priority and ahead of every less urgent one (R82). -/
def insertWaiter (s : State) (order : WaiterOrder) (t : Slot) (l : List Slot) : List Slot :=
  match order with
  | .arrival => l ++ [t]
  | .urgency =>
    let before := fun u => decide ((s.task u).priority ≤ (s.task t).priority)
    l.takeWhile before ++ t :: l.dropWhile before

/-- Change the mailbox of a MESSAGE exchange. -/
def State.updMailbox (s : State) (x : Fin 16) (f : Mailbox → Mailbox) : State :=
  match (s.exchange x).state with
  | .message order box => s.setExchange x (.message order (f box))
  | .closed | .count _ _ => s

/-- Change the count record of a COUNT exchange. -/
def State.updCounter (s : State) (x : Fin 16) (f : Counter → Counter) : State :=
  match (s.exchange x).state with
  | .count order c => s.setExchange x (.count order (f c))
  | .closed | .message _ _ => s

/-- The waiter order of an exchange; a CLOSED record has none, and no task waits there. -/
def State.waiterOrder (s : State) (x : Fin 16) : WaiterOrder :=
  match (s.exchange x).state with
  | .message order _ | .count order _ => order
  | .closed => .arrival

/-! ### Lines and the page-wait queue -/

/-- The record of a line. -/
def State.line (s : State) (l : Line) : LineRecord := s.lines[l]

/-- Change the record of a line. -/
def State.updLine (s : State) (l : Line) (f : LineRecord → LineRecord) : State :=
  { s with lines := s.lines.set l (f (s.line l)) }

/-- Change the Page Pool. -/
def State.updPool (s : State) (f : PagePool → PagePool) : State := { s with pool := f s.pool }

/-- A task enters the list of the object it waits on (R51): the receiver, sender or acquirer list of an exchange at
the position its waiter order gives, the tail of a line's list (R135) or of the page-wait queue (R149). A DELAY has no
list (R122). -/
def joinList (t : Slot) (kind : WaitKind) (s : State) : State :=
  match kind with
  | .delay => s
  | .recv id _ _ =>
    match exchangeIndex id with
    | none => s
    | some x => s.updMailbox x fun b => { b with receivers := insertWaiter s (s.waiterOrder x) t b.receivers }
  | .send id _ =>
    match exchangeIndex id with
    | none => s
    | some x => s.updMailbox x fun b => { b with senders := insertWaiter s (s.waiterOrder x) t b.senders }
  | .acquire id =>
    match exchangeIndex id with
    | none => s
    | some x => s.updCounter x fun c => { c with acquirers := insertWaiter s (s.waiterOrder x) t c.acquirers }
  | .event l => s.updLine l fun r => { r with waiters := r.waiters ++ [t] }
  | .pages _ => s.updPool fun p => { p with waitQueue := p.waitQueue ++ [t] }

/-- A task leaves the list of the object it waits on, the other entries keeping their order (R82, R99, R135, R149). -/
def leaveList (t : Slot) (kind : WaitKind) (s : State) : State :=
  match kind with
  | .delay => s
  | .recv id _ _ =>
    match exchangeIndex id with
    | none => s
    | some x => s.updMailbox x fun b => { b with receivers := b.receivers.erase t }
  | .send id _ =>
    match exchangeIndex id with
    | none => s
    | some x => s.updMailbox x fun b => { b with senders := b.senders.erase t }
  | .acquire id =>
    match exchangeIndex id with
    | none => s
    | some x => s.updCounter x fun c => { c with acquirers := c.acquirers.erase t }
  | .event l => s.updLine l fun r => { r with waiters := r.waiters.erase t }
  | .pages _ => s.updPool fun p => { p with waitQueue := p.waitQueue.erase t }

/-- An entry of a list kept in URGENCY order leaves its position and joins again by the priority now in its task's
record, behind every entry of the same or a more urgent priority (R83, R106). -/
def rejoin (s : State) (t : Slot) (l : List Slot) : List Slot :=
  if t ∈ l then insertWaiter s .urgency t (l.erase t) else l

/-- A waiter whose priority has been changed is repositioned if its list is kept in URGENCY order; in ARRIVAL order, on a
line, in the page-wait queue and in a delay it stays where it is (R83, R106, R135, R149). -/
def repositionWaiter (t : Slot) (s : State) : State :=
  match (s.task t).wait with
  | none => s
  | some w =>
    match w.kind with
    | .recv id _ _ =>
      match exchangeIndex id with
      | none => s
      | some x =>
        if s.waiterOrder x = .urgency then s.updMailbox x fun b => { b with receivers := rejoin s t b.receivers } else s
    | .send id _ =>
      match exchangeIndex id with
      | none => s
      | some x =>
        if s.waiterOrder x = .urgency then s.updMailbox x fun b => { b with senders := rejoin s t b.senders } else s
    | .acquire id =>
      match exchangeIndex id with
      | none => s
      | some x =>
        if s.waiterOrder x = .urgency then s.updCounter x fun c => { c with acquirers := rejoin s t c.acquirers } else s
    | .delay | .event _ | .pages _ => s

/-- Take a task out of the list and the timer list its wait has it in (R9, first step; R14). -/
def leaveWait (t : Slot) (s : State) : State :=
  match (s.task t).wait with
  | none => removeTimer t s
  | some w => removeTimer t (leaveList t w.kind s)

end Sys2Proof.Machine
end

