-- ==== Sys2Proof/Machine/Dispatcher.lean ====
section
/-! DEFINITION. The Dispatcher (chapters 2 and 3): next, eligibility, selection, posting and revision, placement with
its cascade, re-decision, and the slice. -/

namespace Sys2Proof.Machine

/-! ### Urgency, next, eligibility, selection -/

/-- The priority number the Dispatcher compares; IDLE is less urgent than every task (R27). -/
def State.urgency (s : State) : Option Slot → Nat
  | some t => (s.task t).priority.val
  | none => 32

/-- The next of a port: the incoming of its posted offer, or its occupant when SETTLED (R27). -/
def State.next (s : State) (p : Port) : Option Slot :=
  match (s.port p).occ.offer with
  | some o => o.incoming
  | none => (s.port p).occ.occupant

/-- Which ports an affinity permits (R28). -/
def Affinity.permits : Affinity → Port → Bool
  | .portA, .A => true
  | .portA, .B => false
  | .portB, .A => false
  | .portB, .B => true
  | .either, _ => true

/-- A task is eligible for a port when its affinity permits the port and the port is ENABLED (R28). -/
def State.eligible (s : State) (p : Port) (t : Slot) : Bool :=
  (s.task t).affinity.permits p && (s.port p).isEnabled

/-- Selection for a port: the first eligible task from level 0 to level 31, each level from its head; IDLE when there
is none (R32). -/
def State.selection (s : State) (p : Port) : Option Slot :=
  s.queues.toList.flatten.find? (s.eligible p)

/-- The first READY task, in queue order, of the priority of a task that is eligible for a port: the F of R40 and
R61. -/
def State.firstPeer (s : State) (p : Port) (t : Slot) : Option Slot :=
  (s.queue (s.task t).priority).find? (s.eligible p)

/-! ### Posting and revision -/

/-- Write a port's offer afresh: the sequence counter increments, every field of the offer is written from the task
records as they stand, and the OFFER cause becomes pending (R46, R47, R59, R60). A posting and a revision differ only
in what stood before. -/
def writeOffer (p : Port) (kind : OfferKind) (incoming : Option Slot) (s : State) : State :=
  let seq := (s.port p).occ.sequence + 1
  let offer : Offer :=
    { sequence := seq
      kind := kind
      incoming := incoming
      incomingContext := incoming.map fun t => (s.task t).context
      outgoingContext := (s.port p).occ.occupant.map fun t => (s.task t).context
      delivery := incoming.bind fun t => (s.task t).delivery }
  (s.updOcc p fun o => { o with sequence := seq, offer := some offer }).raise p .offer

/-- The task leaves its queue, becomes SELECTED, and is the incoming of a SWITCH offer written on the port (R47, R59,
R60). -/
def offerTask (p : Port) (t : Slot) (s : State) : State :=
  writeOffer p .switchTask (some t) ((unqueue t s).setTaskState t .selected)

/-- Write a SWITCH offer whose incoming is a task that leaves its queue, or IDLE. -/
def offerNext (p : Port) (incoming : Option Slot) (s : State) : State :=
  match incoming with
  | some t => offerTask p t s
  | none => writeOffer p .switchTask none s

/-! ### Placement (R33 to R36) -/

/-- A port is a candidate for a task that is eligible for it when the port's next is less urgent than the task
(R33). -/
def State.isCandidate (s : State) (t : Slot) (p : Port) : Bool :=
  s.eligible p t && decide ((s.task t).priority.val < s.urgency (s.next p))

/-- The choice among the candidate ports: one whose next is IDLE, else the one whose next is least urgent, else Port A
(R34). IDLE ranks behind every task, so the first two tests are one comparison. -/
def State.choosePort (s : State) (t : Slot) : Option Port :=
  match s.isCandidate t .A, s.isCandidate t .B with
  | false, false => none
  | true, false => some .A
  | false, true => some .B
  | true, true => if s.urgency (s.next .A) < s.urgency (s.next .B) then some .B else some .A

/-- The task that placement on a port displaces from its offer: the SELECTED incoming of a SWITCH offer (R35, third
row). -/
def State.displacedBy (s : State) (p : Port) : Option Slot :=
  match (s.port p).occ.offer with
  | some o => if o.kind = .switchTask then o.incoming else none
  | none => none

/-- Offer a placed task on the chosen port (R35): an occupant that had the port, SETTLED or in a CONTINUE offer,
becomes READY_HEAD; on a SWITCH offer the disposition is not changed. -/
def takePort (p : Port) (t : Slot) (s : State) : State :=
  let occ := (s.port p).occ
  let preempts := occ.occupant.isSome && (match occ.offer with | some o => o.kind == .continueTask | none => true)
  offerTask p t (if preempts then s.setDisposition p .readyHead else s)

/-- Placement of a READY task with its cascade (R33 to R36). Each displaced task is strictly less urgent than the one
that displaced it, so 32 rounds are enough in every state; with two ports the manual bounds the chain at two
displacements. -/
def placeRounds : Nat → Slot → State → State
  | 0, _, s => s
  | rounds + 1, t, s =>
    match s.choosePort t with
    | none => s
    | some p =>
      match s.displacedBy p with
      | none => takePort p t s
      | some y => placeRounds rounds y (enterHead y (takePort p t s))

/-- Placement of a task that has just become READY (R33). -/
def place (t : Slot) (s : State) : State := placeRounds 32 t s

/-- The task becomes READY at the tail of its level, then placement (R30). -/
def readyTail (t : Slot) (s : State) : State := place t (enterTail t s)

/-- The task becomes READY at the head of its level, then placement (R30). -/
def readyHead (t : Slot) (s : State) : State := place t (enterHead t s)

/-! ### Re-decision (R53 to R58) -/

/-- The winner of a re-decision (R54). -/
inductive Winner where
  | occupant
  | incoming
  | selected (t : Option Slot)
  deriving DecidableEq, Repr

/-- Is the occupant a candidate? IDLE is; a task is unless its disposition is WAIT, HELD or FREE (R54). -/
def Occupancy.occupantStays (o : Occupancy) : Bool :=
  match o.occupant, o.disposition with
  | none, _ => true
  | some _, none => true
  | some _, some d =>
    match d with
    | .readyHead | .readyTail | .stay => true
    | .wait | .held | .free => false

/-- The current incoming, when it is a candidate: the port has a SWITCH offer whose incoming is still in it (R54).
`gone` says that the incoming has been removed by a delete or a hold. -/
def Occupancy.standingIncoming (o : Occupancy) (gone : Bool) : Option (Option Slot) :=
  match o.offer with
  | some f => if f.kind = .switchTask ∧ gone = false then some f.incoming else none
  | none => none

/-- The most urgent candidate; the occupant wins over the current incoming and the current incoming over the selection
when they are equally urgent (R54). -/
def State.winner (s : State) (p : Port) (gone : Bool) : Winner :=
  let occ := (s.port p).occ
  let selection := s.selection p
  let best := s.urgency selection
  match occ.standingIncoming gone with
  | some y =>
    if occ.occupantStays ∧ s.urgency occ.occupant ≤ s.urgency y ∧ s.urgency occ.occupant ≤ best then .occupant
    else if s.urgency y ≤ best then .incoming
    else .selected selection
  | none =>
    if occ.occupantStays ∧ s.urgency occ.occupant ≤ best then .occupant
    else .selected selection

/-- An occupant that loses the port without a disposition of its own: on a SETTLED port, or with STAY, it becomes
READY_TAIL (R55, R57). -/
def losePort (p : Port) (s : State) : State :=
  match (s.port p).occ.occupant, (s.port p).occ.disposition with
  | some _, none => s.setDisposition p .readyTail
  | some _, some .stay => s.setDisposition p .readyTail
  | _, _ => s

/-- A task that a revision took out of an offer enters the head of its level and is placed (R58). -/
def displace (y : Option Slot) (s : State) : State :=
  match y with
  | some t => readyHead t s
  | none => s

/-- The offer is revised to CONTINUE: the occupant, a task or IDLE, keeps the port (R48, R56). -/
def continueOccupant (p : Port) (s : State) : State :=
  match (s.port p).occ.occupant with
  | some x => writeOffer p .continueTask (some x) (s.setDisposition p .stay)
  | none => writeOffer p .continueTask none s

/-- Re-decision of a port (R53 to R58). `gone` says that the offer's SELECTED incoming has been removed by a delete or a
hold. On a DISABLED port it changes nothing. -/
def redecide (p : Port) (gone : Bool) (s : State) : State :=
  if (s.port p).isEnabled = false then s
  else
    match (s.port p).occ.offer, s.winner p gone with
    | none, .selected t => offerNext p t (losePort p s)
    | none, .occupant | none, .incoming => s
    | some o, w =>
      match o.kind, w with
      | .switchTask, .incoming => s
      | .switchTask, .occupant => displace (if gone then none else o.incoming) (continueOccupant p s)
      | .switchTask, .selected t => displace (if gone then none else o.incoming) (offerNext p t s)
      | .continueTask, .selected t => offerNext p t (losePort p s)
      | .continueTask, .occupant | .continueTask, .incoming => s

/-! ### The slice (R61, R124) -/

/-- Is the port counted at a tick? It is when it is SETTLED and its occupant is a task whose quantum is not 0 (R124). -/
def State.counted (s : State) (p : Port) : Bool :=
  match (s.port p).occ.offer, (s.port p).occ.occupant with
  | none, some x => (s.task x).quantum != 0
  | _, _ => false

/-- Will counting the port bring its occupant's remaining quantum to 0? -/
def State.slices (s : State) (p : Port) : Bool :=
  s.counted p &&
    match (s.port p).occ.occupant with
    | some x => (s.task x).remaining == 1
    | none => false

/-- A slice expiry of the occupant x of a SETTLED port (R61). -/
def sliceExpired (p : Port) (x : Slot) (s : State) : State :=
  match s.firstPeer p x with
  | some f => offerTask p f (s.setDisposition p .readyTail)
  | none => s.updTask x fun r => { r with remaining := r.quantum }

/-- Count the quantum of a port's occupant at a tick (R124). -/
def countQuantum (p : Port) (s : State) : State :=
  if s.counted p then
    match (s.port p).occ.occupant with
    | none => s
    | some x =>
      let s' := s.updTask x fun r => { r with remaining := r.remaining - 1 }
      if (s'.task x).remaining = 0 then sliceExpired p x s' else s'
  else s

end Sys2Proof.Machine
end

