-- ==== Sys2Proof/Machine/Waits.lean ====
section
/-! DEFINITION. The beginning, the end and the cancelling of a wait (R7, R9, R14, R51, R52). -/

namespace Sys2Proof.Machine

/-- The occupant `x` of port `p` begins a wait (R51): the wait record is written and a delivery it held is lost (R52),
the task enters the object's list and, with a deadline, the timer list, its disposition becomes WAIT, and the port is
re-decided. On a SETTLED port the re-decision posts an offer. -/
def beginWait (p : Port) (x : Slot) (kind : WaitKind) (deadline : Option TickCount) (s : State) : State :=
  let s₁ := s.updTask x fun r => { r with wait := some ⟨kind, deadline⟩, delivery := none }
  redecide p false ((insertTimer x deadline (joinList x kind s₁)).setDisposition p .wait)

/-- The deadline of a wait begun now with timeout t: the tick counter plus t, modulo 2^32 (R116). -/
def State.deadlineIn (s : State) (t : Half) : TickCount := s.time.counter + t.setWidth 32

/-- The task becomes HELD with hold cause COMMAND; a hold flag is gone (R6, R9). -/
def becomeHeld (t : Slot) (s : State) : State :=
  s.updTask t fun r => { r with state := .held, holdFlag := false, holdCause := some .command }

/-- The new place of a task whose wait has ended (R9, third step): READY or HELD if it was WAITING; a new disposition
and re-decision of its port if it is the departing occupant with disposition WAIT. -/
def settleWaiter (t : Slot) (s : State) : State :=
  let r := s.task t
  match r.state with
  | .waiting => if r.holdFlag then becomeHeld t s else readyTail t s
  | .running =>
    match s.portOfOccupant t with
    | none => s
    | some p =>
      if (s.port p).occ.disposition = some .wait then
        if r.holdFlag then
          redecide p false ((s.updTask t fun r => { r with holdFlag := false, holdCause := some .command }).setDisposition p .held)
        else redecide p false (s.setDisposition p .readyTail)
      else s
  | .free | .dormant | .ready | .selected | .held => s

/-- The end of a wait (R9): the task leaves its list and the timer list, the wait record is removed and the delivery
written, and the task takes its new place. -/
def endWait (t : Slot) (d : Delivery) (s : State) : State :=
  settleWaiter t ((leaveWait t s).updTask t fun r => { r with wait := none, delivery := some d })

/-- End the waits of a list of tasks, each whole before the next (R37). -/
def endWaits (ts : List Slot) (d : Delivery) (s : State) : State :=
  ts.foldl (fun s t => endWait t d s) s

/-- Cancel a wait (R14): the task leaves its list and the timer list, and the wait record, the hold flag and the hold
cause are gone; no delivery is written here. -/
def cancelWait (t : Slot) (s : State) : State :=
  (leaveWait t s).updTask t fun r => { r with wait := none, holdFlag := false, holdCause := none }

end Sys2Proof.Machine
end

