-- ==== Sys2Proof/Machine/Pool.lean ====
section
/-! DEFINITION. The Page Pool (chapter 8): the page map and the run table, first fit, serving the page-wait queue, and
the freeing of a slot with its runs. -/

namespace Sys2Proof.Machine

/-- Is the page of the pool free? A page of P or above is no page of the pool (R144). -/
def PagePool.isFree (p : PagePool) (k : Nat) : Bool :=
  if h : k < 128 then decide (k < p.size) && (p.pageMap[k]).isNone else false

/-- The entry of the run a page belongs to (R144). -/
def PagePool.entryOf (p : PagePool) (k : Nat) : Option (Fin 64) :=
  if h : k < 128 then p.pageMap[k] else none

/-- First fit: the lowest page that starts n consecutive free pages of the pool (R148). -/
def PagePool.firstFit (p : PagePool) (n : Nat) : Option Nat :=
  (List.range 128).find? fun k => (List.range n).all fun i => p.isFree (k + i)

/-- A free entry of the run table, the lowest one; entries carry no number that software can see (R145). -/
def PagePool.freeEntry (p : PagePool) : Option (Fin 64) :=
  (List.finRange 64).find? fun e => (p.runs[e]).isNone

/-- The entry whose run starts at a page (R153: "the first page of a run"). -/
def PagePool.entryAt (p : PagePool) (first : Nat) : Option (Fin 64) :=
  (List.finRange 64).find? fun e =>
    match p.runs[e] with
    | some r => r.first == first
    | none => false

/-- Where a request for n pages can be granted: a free entry of the run table and the first fit (R148, R150). -/
def PagePool.grantFor (p : PagePool) (n : Nat) : Option (Fin 64 × Nat) :=
  match p.freeEntry, p.firstFit n with
  | some e, some k => some (e, k)
  | _, _ => none

/-- Create a run in an entry: its pages leave the free number (R148). -/
def PagePool.createRun (e : Fin 64) (first n : Nat) (owner : Slot) (p : PagePool) : PagePool :=
  { p with
    runs := p.runs.set e (some ⟨first, n, owner⟩)
    pageMap := Vector.ofFn fun k : Fin 128 =>
      if first ≤ k.val ∧ k.val < first + n then some e else p.pageMap[k]
    freePages := p.freePages - n }

/-- Remove the run of an entry: its pages become free and its entry free (R153). -/
def PagePool.removeRun (e : Fin 64) (p : PagePool) : PagePool :=
  match p.runs[e] with
  | none => p
  | some r =>
    { p with
      runs := p.runs.set e none
      pageMap := Vector.ofFn fun k : Fin 128 =>
        if r.first ≤ k.val ∧ k.val < r.first + r.length then none else p.pageMap[k]
      freePages := p.freePages + r.length }

/-- The runs of the table. -/
def PagePool.runList (p : PagePool) : List Run := p.runs.toList.filterMap id

/-- The runs a task owns (R145). -/
def PagePool.runsOf (p : PagePool) (t : Slot) : List Run := p.runList.filter fun r => r.owner == t

/-- Does an entry hold a run of the task? -/
def PagePool.ownedBy (p : PagePool) (t : Slot) (e : Fin 64) : Bool :=
  match p.runs[e] with
  | some r => r.owner == t
  | none => false

/-- Remove every run a task owns (R156). -/
def PagePool.releaseRuns (t : Slot) (p : PagePool) : PagePool :=
  ((List.finRange 64).filter (p.ownedBy t)).foldl (fun q e => q.removeRun e) p

/-- The count a task of the page-wait queue asks (R149). -/
def State.askedPages (s : State) (t : Slot) : Nat :=
  match (s.task t).wait with
  | some ⟨.pages n, _⟩ => n
  | _ => 0

/-- One pass of serving (R150): grant the head if it can be granted, then examine the new head; stop at the first head
that cannot be granted. Each grant takes one entry off the queue, so as many rounds as the queue has entries are
enough. Answers the number of requests granted. -/
def serveRounds : Nat → State → State × Nat
  | 0, s => (s, 0)
  | rounds + 1, s =>
    match s.pool.waitQueue with
    | [] => (s, 0)
    | t :: rest =>
      match s.pool.grantFor (s.askedPages t) with
      | none => (s, 0)
      | some (e, k) =>
        let granted := s.updPool fun p => { p.createRun e k (s.askedPages t) t with waitQueue := rest }
        let (s', n) := serveRounds rounds (endWait t (.ok (.page (BitVec.ofNat 8 k))) granted)
        (s', n + 1)

/-- Serve the page-wait queue (R150), with the number of requests granted. -/
def serveCount (s : State) : State × Nat := serveRounds s.pool.waitQueue.length s

/-- Serve the page-wait queue (R150). -/
def serve (s : State) : State := (serveCount s).1

/-- Is the task the head of the page-wait queue? -/
def State.isPageHead (s : State) (t : Slot) : Bool := s.pool.waitQueue.head? == some t

/-- Does the task own a run? -/
def State.ownsRun (s : State) (t : Slot) : Bool := !(s.pool.runsOf t).isEmpty

/-- The slot becomes FREE with its generation kept, and every run its task owns is removed (R11, R156). Serving is the
caller's, so that it follows every removal of the event. -/
def freeSlot (t : Slot) (s : State) : State :=
  (s.updTask t fun r => blankTask r.generation).updPool (·.releaseRuns t)

/-- The slot becomes FREE; the Page Pool serves its queue if runs were released or the task has just left the head of
the queue (R11, R156). -/
def retire (t : Slot) (wasHead : Bool) (s : State) : State :=
  if s.ownsRun t || wasHead then serve (freeSlot t s) else freeSlot t s

end Sys2Proof.Machine
end

