-- ==== Sys2Proof/Machine/Lifecycle.lean ====
section
/-! DEFINITION. What several blocks do together at an accept, at a port loss and at device reset (R62 to R65, R180,
R181, R183), and the expiry of a timer entry and the tick (R118 to R121). -/

namespace Sys2Proof.Machine

/-! ### Accept (R62 to R65) -/

/-- The task becomes the occupant that an applied accept resumes: RUNNING, its remaining quantum reloaded, its
delivery cleared (R63, R65). -/
def resumeTask (t : Slot) (s : State) : State :=
  s.updTask t fun r => { r with state := .running, remaining := r.quantum, delivery := none }

/-- The offer and the disposition are removed, the port is SETTLED, the OFFER cause is cleared and accept status becomes
ACCEPTED (R63, R65). -/
def settlePort (p : Port) (s : State) : State :=
  s.updPort p fun r =>
    { r with occ := { r.occ with offer := none, disposition := none, acceptStatus := .accepted } }.clear .offer

/-- The outgoing occupant becomes what its disposition says (R64). -/
def applyDisposition (x : Slot) (d : Option Disposition) (s : State) : State :=
  match d with
  | some .readyHead => readyHead x s
  | some .readyTail => readyTail x s
  | some .wait => s.setTaskState x .waiting
  | some .held => s.updTask x fun r => { r with state := .held, holdCause := some .command }
  | some .free => retire x false s
  | some .stay | none => s

/-- The accept of a SWITCH offer with incoming `y` (R63). -/
def acceptSwitch (p : Port) (y : Option Slot) (s : State) : State :=
  let occ := (s.port p).occ
  let s₁ := s.updOcc p fun o => { o with occupant := y }
  let s₂ := match y with | some t => resumeTask t s₁ | none => s₁
  let s₃ := settlePort p s₂
  match occ.occupant with
  | some x => applyDisposition x occ.disposition s₃
  | none => s₃

/-- The accept of a CONTINUE offer (R65). -/
def acceptContinue (p : Port) (s : State) : State :=
  match (s.port p).occ.occupant with
  | some x => settlePort p (resumeTask x s)
  | none => settlePort p s

/-- Write a port's accept status (R67). -/
def setAcceptStatus (p : Port) (a : AcceptStatus) (s : State) : State :=
  s.updOcc p fun o => { o with acceptStatus := a }

/-- An accept of the value v, checked and applied or refused (R62). -/
def takeAccept (p : Port) (v : Byte) (s : State) : State :=
  if (s.port p).busy then setAcceptStatus p .busyRefused s
  else
    match (s.port p).occ.offer with
    | none => setAcceptStatus p .stale s
    | some o =>
      if v ≠ o.sequence then setAcceptStatus p .stale s
      else
        match o.kind with
        | .switchTask => acceptSwitch p o.incoming s
        | .continueTask => acceptContinue p s

/-! ### Port loss (R180, R181) -/

/-- The command unit and the interrupt sets after a loss: the submitted command is dropped, the lists are emptied, RES
is 00h, the overrun flag, INTP and INTE are cleared (R176, R180). The data lines are no part of the unit's records. -/
def PortUnit.lost (u : PortUnit) : PortUnit :=
  { u with staging := [], command := none, res := 0, results := [], overrun := false, intp := 0, inte := 0 }

/-- The occupancy record after a loss: IDLE and SETTLED, the sequence counter and accept status kept (R70, R180). -/
def Occupancy.lost (o : Occupancy) : Occupancy :=
  { o with occupant := none, offer := none, disposition := none }

/-- The lost port's own records (R180): Port Unit, offer, occupant and lifecycle state. -/
def shutPort (p : Port) (s : State) : State :=
  s.updPort p fun r => { r with lifecycle := .disabled, occ := r.occ.lost, unit := r.unit.lost }

/-- What the loss makes of an occupant that is not doomed (R180): HELD with cause PORT_LOST; a wait it had begun while
departing is cancelled with delivery LOST, and any other delivery is kept. -/
def loseOccupant (x : Slot) (d : Option Disposition) (s : State) : State :=
  let s₁ :=
    if d = some .wait then (cancelWait x s).updTask x fun r => { r with delivery := some .lost } else s
  s₁.updTask x fun r => { r with state := .held, holdFlag := false, holdCause := some .portLost }

/-- The loss of a port (R180, then R181 in its order): the port's own records; PEER_DOWN on the other port, if this
port was ENABLED (R179) and the other's PRST is not asserted; the SELECTED incoming of the removed offer to the head of
its level and placed; one serving, if runs were released or the head of the page-wait queue left. -/
def losePortWhole (p : Port) (s : State) : State :=
  let old := s.port p
  let s₁ := shutPort p s
  let (s₂, mustServe) :=
    match old.occ.occupant with
    | none => (s₁, false)
    | some x =>
      if (s.task x).doomed then (freeSlot x s₁, s.ownsRun x)
      else (loseOccupant x old.occ.disposition s₁, old.occ.disposition == some Disposition.wait && s.isPageHead x)
  let s₃ := if old.isEnabled then s₂.raise (otherPort p) .peerDown else s₂
  let s₄ :=
    match old.occ.offer with
    | some o => if o.kind = OfferKind.switchTask then displace o.incoming s₃ else s₃
    | none => s₃
  if mustServe then serve s₄ else s₄

/-! ### Device reset (R183) -/

/-- A port after device reset: every record at its reset value; the level of the PRST input and the data lines are the
outside's (R183; log entries 3 and 4). -/
def PortRecord.deviceReset (r : PortRecord) : PortRecord :=
  { resetPort with prst := r.prst, unit := { resetUnit with dataOut := r.unit.dataOut } }

/-- Device reset: every block takes its reset values at once (R183). The input levels, the queue of waiting commands and
the free-value counter are not the part's records and stay. -/
def deviceReset (s : State) : State :=
  { State.reset with
    portA := s.portA.deviceReset
    portB := s.portB.deviceReset
    rst := s.rst
    draws := s.draws
    pending := s.pending }

/-! ### Expiry and tick (R118 to R121) -/

/-- Is the task's timer entry in the list and due: has the counter reached its deadline? (R117, R118) -/
def State.isDue (s : State) (t : Slot) : Bool :=
  s.time.timers.any fun e => e.task == t && e.deadline == s.time.counter

/-- The delivery an expiry writes: OK for a DELAY, TIMEOUT for every other kind (R119, R120). -/
def expiryDelivery (w : Option WaitRecord) : Delivery :=
  match w with
  | some ⟨.delay, _⟩ => .ok .none
  | _ => .timeout

/-- The expiry of a task's timer entry (R119, R120): its wait ends; if it was the head of the page-wait queue, the Page
Pool then serves from the new head. An entry that is no longer in the list, or not due, does not expire (R121). -/
def expire (t : Slot) (s : State) : State :=
  if s.isDue t then
    let s' := endWait t (expiryDelivery (s.task t).wait) s
    if s.isPageHead t then serve s' else s'
  else s

/-- The tasks whose entries are due, in list order (R118). -/
def State.dueTasks (s : State) : List Slot :=
  (s.time.timers.filter fun e => e.deadline == s.time.counter).map (·.task)

/-- Step 1 of a tick: the counter is incremented (R114), both dividers restart, and the tick period that begins counts
to the stored N (R112, R113). -/
def startPeriod (s : State) : State :=
  { s with
    time :=
      { s.time with
        counter := s.time.counter + 1
        baseDivider := 0
        intervalCounter := 0
        periodN := s.time.storedN } }

/-- Step 3 of a tick: the quanta of the two ports are counted (R124). When both slices expire at this tick, which is
taken first is a free value (R125; log entry 8); otherwise the order makes no difference. -/
def countQuanta (s : State) : State :=
  if s.slices .A && s.slices .B then
    let s' := { s with draws := s.draws + 1 }
    if Config.portBSlicesFirst s.draws then countQuantum .A (countQuantum .B s')
    else countQuantum .B (countQuantum .A s')
  else countQuantum .B (countQuantum .A s)

/-- A tick, taken whole (R118): the counter; every due entry in list order, each expiry whole; the quanta. -/
def tickWhole (s : State) : State :=
  let s₁ := startPeriod s
  countQuanta (s₁.dueTasks.foldl (fun s t => expire t s) s₁)

/-- One CLK period of the tick divider (R112): 200 CLK periods complete a base interval, and the period's N base
intervals a tick. While RST is asserted no tick occurs (R183). -/
def clkPeriod (s : State) : State :=
  if s.rst then s
  else if s.time.baseDivider + 1 < 200 then
    { s with time := { s.time with baseDivider := s.time.baseDivider + 1 } }
  else if s.time.intervalCounter + 1 < s.time.periodN then
    { s with time := { s.time with baseDivider := 0, intervalCounter := s.time.intervalCounter + 1 } }
  else tickWhole s

end Sys2Proof.Machine
end

