-- ==== Sys2Proof/Machine/Operands.lean ====
section
/-! DEFINITION. Everything about a command's form: the command codes (R168), byte order, handles (R4), exchange ids
(R72), wait options (R84), the caller checks and the check order (R169), and submission's other end, the completion
(R165). -/

namespace Sys2Proof.Machine

/-! ### Command codes (R168) -/

/-- The commands the part knows (R168). -/
inductive CommandCode where
  | taskCreate | taskStart | taskDelete | taskExit | taskHold | taskRelease | taskSetpri | taskSetaff | taskSetctx
  | taskQuery | taskSelf | taskYield | taskDelay
  | xchOpen | xchClose | xchQuery | msgSend | msgRecv | cntAcquire | cntRelease
  | evtConfig | evtWait | evtQuery
  | pageAlloc | pageFree | pageGive | pageQuery | pageReclaim | pageConfig
  | timeConfig | timeRead
  | portEnable | portDrop | peerDrop | deviceReset
  deriving DecidableEq, Repr

/-- The code of a command (R168). -/
def CommandCode.code : CommandCode → Byte
  | .taskCreate => 0x10
  | .taskStart => 0x11
  | .taskDelete => 0x12
  | .taskExit => 0x13
  | .taskHold => 0x14
  | .taskRelease => 0x15
  | .taskSetpri => 0x16
  | .taskSetaff => 0x17
  | .taskSetctx => 0x18
  | .taskQuery => 0x19
  | .taskSelf => 0x1A
  | .taskYield => 0x1B
  | .taskDelay => 0x1C
  | .xchOpen => 0x20
  | .xchClose => 0x21
  | .xchQuery => 0x22
  | .msgSend => 0x23
  | .msgRecv => 0x24
  | .cntAcquire => 0x25
  | .cntRelease => 0x26
  | .evtConfig => 0x30
  | .evtWait => 0x31
  | .evtQuery => 0x32
  | .pageAlloc => 0x40
  | .pageFree => 0x41
  | .pageGive => 0x42
  | .pageQuery => 0x43
  | .pageReclaim => 0x44
  | .pageConfig => 0x45
  | .timeConfig => 0x50
  | .timeRead => 0x51
  | .portEnable => 0x60
  | .portDrop => 0x61
  | .peerDrop => 0x62
  | .deviceReset => 0x63

/-- The parameter count of a command (R168). -/
def CommandCode.paramCount : CommandCode → Nat
  | .taskCreate => 6
  | .taskStart => 2
  | .taskDelete => 2
  | .taskExit => 0
  | .taskHold => 2
  | .taskRelease => 2
  | .taskSetpri => 3
  | .taskSetaff => 3
  | .taskSetctx => 5
  | .taskQuery => 2
  | .taskSelf => 0
  | .taskYield => 0
  | .taskDelay => 2
  | .xchOpen => 4
  | .xchClose => 1
  | .xchQuery => 1
  | .msgSend => 7
  | .msgRecv => 6
  | .cntAcquire => 4
  | .cntRelease => 1
  | .evtConfig => 3
  | .evtWait => 4
  | .evtQuery => 1
  | .pageAlloc => 4
  | .pageFree => 1
  | .pageGive => 3
  | .pageQuery => 1
  | .pageReclaim => 1
  | .pageConfig => 1
  | .timeConfig => 2
  | .timeRead => 0
  | .portEnable => 0
  | .portDrop => 0
  | .peerDrop => 0
  | .deviceReset => 0

/-- Every command the part knows, in the order of R168. -/
def CommandCode.all : List CommandCode :=
  [.taskCreate, .taskStart, .taskDelete, .taskExit, .taskHold, .taskRelease, .taskSetpri, .taskSetaff, .taskSetctx,
    .taskQuery, .taskSelf, .taskYield, .taskDelay, .xchOpen, .xchClose, .xchQuery, .msgSend, .msgRecv, .cntAcquire,
    .cntRelease, .evtConfig, .evtWait, .evtQuery, .pageAlloc, .pageFree, .pageGive, .pageQuery, .pageReclaim,
    .pageConfig, .timeConfig, .timeRead, .portEnable, .portDrop, .peerDrop, .deviceReset]

/-- Does the part know a written code? (R168) -/
def knownCode (code : Byte) : Bool := CommandCode.all.any fun c => c.code == code

/-! ### Byte order: low byte first (00 "Numbers and ranges") -/

/-- A two-byte field from its bytes. -/
def half (lo hi : Byte) : Half := hi ++ lo

/-- The low byte of a two-byte field. -/
def loByte (v : Half) : Byte := v.setWidth 8

/-- The high byte of a two-byte field. -/
def hiByte (v : Half) : Byte := (v >>> 8).setWidth 8

/-- The two bytes of a field, low byte first. -/
def halfBytes (v : Half) : List Byte := [loByte v, hiByte v]

/-- A context word from its three bytes. -/
def contextOf (b0 b1 b2 : Byte) : Context := b2 ++ b1 ++ b0

/-- A context word's byte i, 0 the low one. -/
def contextByte (i : Nat) (c : Context) : Byte := (c >>> (8 * i)).setWidth 8

/-- The four bytes of a tick count, low byte first (R114). -/
def tickBytes (c : TickCount) : List Byte :=
  [c.setWidth 8, (c >>> 8).setWidth 8, (c >>> 16).setWidth 8, (c >>> 24).setWidth 8]

/-- A count as a byte. -/
def countByte (n : Nat) : Byte := BitVec.ofNat 8 n

/-! ### Handles and ids -/

/-- The current handle of a slot's task: generation x 64 + slot (R4). -/
def State.handle (s : State) (t : Slot) : Half :=
  BitVec.ofNat 16 ((s.task t).generation.toNat * 64 + (t.val + 1))

/-- The slot part of a handle; none when the handle is malformed: slot part 0 or 49..63, or a value above 03FFh
(R4). -/
def handleSlot (v : Half) : Option Slot :=
  if h : 1 ≤ v.toNat % 64 ∧ v.toNat % 64 ≤ 48 ∧ v.toNat ≤ 0x3FF then some ⟨v.toNat % 64 - 1, by omega⟩ else none

/-- The task a handle names: BAD_PARAM when it is malformed; STALE_HANDLE when its generation differs from the slot's, when
the slot is FREE, or when the task is doomed. A doomed task's current handle, which PAGE.QUERY and PAGE.RECLAIM report, is
stale as well (R4, R10, R154, R155, R157). -/
def State.namedTask (s : State) (v : Half) : Except Result Slot :=
  match handleSlot v with
  | none => .error .badParam
  | some t =>
    let r := s.task t
    if v.toNat / 64 = r.generation.toNat ∧ r.state ≠ .free ∧ r.doomed = false then .ok t else .error .staleHandle

/-- The current id of an exchange record: generation x 32 + number (R72). -/
def State.exchangeId (s : State) (x : Fin 16) : Byte :=
  BitVec.ofNat 8 ((s.exchange x).generation.toNat * 32 + (x.val + 1))

/-- The exchange an id names: BAD_PARAM when it is malformed, STALE_EXCHANGE when its generation differs or the record
is CLOSED (R72). -/
def State.namedExchange (s : State) (id : Byte) : Except Result (Fin 16) :=
  match exchangeIndex id with
  | none => .error .badParam
  | some x =>
    if id.toNat / 32 = (s.exchange x).generation.toNat ∧ (s.exchange x).state ≠ .closed then .ok x
    else .error .staleExchange

/-! ### Small parameters -/

/-- A priority parameter (R12, R19). -/
def priorityOf (b : Byte) : Option (Fin 32) := if h : b.toNat < 32 then some ⟨b.toNat, h⟩ else none

/-- An affinity parameter (R12, R20). -/
def affinityOf (b : Byte) : Option Affinity :=
  if b = 1 then some .portA else if b = 2 then some .portB else if b = 3 then some .either else none

/-- A waiter order parameter (R74). -/
def waiterOrderOf (b : Byte) : Option WaiterOrder :=
  if b = 1 then some .arrival else if b = 2 then some .urgency else none

/-- A line number parameter (R136). -/
def lineOf (b : Byte) : Option Line := if h : b.toNat < 8 then some ⟨b.toNat, h⟩ else none

/-- An edge mode parameter (R139). -/
def edgeModeOf (b : Byte) : Option EdgeMode :=
  if b = 0 then some .off else if b = 1 then some .rise else if b = 2 then some .fall else if b = 3 then some .both
  else none

/-- A release mode parameter (R139). -/
def releaseModeOf (b : Byte) : Option ReleaseMode := if b = 1 then some .one else if b = 2 then some .all else none

/-! ### Wait options (R84) -/

/-- FOREVER or TIMED: the wait options that make a command caller-required (R84, R168 note 1). -/
def mayWait (option : Byte) : Bool := option == 1 || option == 2

/-- The wait option and timeout are in range: an option of 0, 1 or 2, and with TIMED a timeout of 1..65535 (R84). -/
def waitInRange (option : Byte) (timeout : Half) : Bool :=
  decide (option.toNat ≤ 2) && !(option == 2 && timeout == 0)

/-- The deadline a wait option gives: TIMED alone has one (R84, R116). -/
def State.deadlineOf (s : State) (option : Byte) (timeout : Half) : Option TickCount :=
  if option = 2 then some (s.deadlineIn timeout) else none

/-! ### Replies and completion -/

/-- A command carried out that completes at once (R165, R170). -/
def done (bytes : List Byte) (s : State) : Reply := ⟨s, .ok, bytes⟩

/-- A command that has begun a wait of its caller (R51, R170). -/
def beganWait (s : State) : Reply := ⟨s, .waiting, []⟩

/-- A refused command: no record of any other block changes, and there are no result bytes (R169, R170). -/
def refuse (r : Result) (s : State) : Reply := ⟨s, r, []⟩

/-- The completion of a command (R165): RES and the result list are written, the unit becomes READY, and DONE becomes
pending. -/
def complete (p : Port) (reply : Reply) : State :=
  (reply.state.updUnit p fun u => { u with command := none, res := reply.result.code, results := reply.bytes }).raise p .done

/-- The taking of a command of a given code on a port (R165): `k` is applied to the parameters handed over. If the port
holds no submitted command of that code, no such command can be taken, and nothing changes (log entry 6). -/
def take (p : Port) (c : CommandCode) (k : List Byte → State → State) (s : State) : Host.Outcome State Fault Refusal :=
  match (s.port p).unit.command with
  | none => .next s
  | some sub => if sub.code = c.code then .next (k sub.params s) else .next s

/-- The taking of a command that completes with the reply of `body` (R165). -/
def command (p : Port) (c : CommandCode) (body : List Byte → State → Reply) (s : State) :
    Host.Outcome State Fault Refusal :=
  take p c (fun params s => complete p (body params s)) s

/-! ### The caller checks (R169, step 3) -/

/-- The caller of a caller-required command: the occupant, unless it is IDLE, doomed, or departing with disposition WAIT
or HELD (R16, R169). -/
def State.callerOf (s : State) (p : Port) : Except Result Slot :=
  match (s.port p).occ.occupant with
  | none => .error .noCaller
  | some x =>
    if (s.task x).doomed then .error .callerGone
    else if (s.port p).occ.disposition = some .wait ∨ (s.port p).occ.disposition = some .held then .error .departing
    else .ok x

/-- A caller-required command (R169, step 3). -/
def withCaller (p : Port) (s : State) (k : Slot → Reply) : Reply :=
  match s.callerOf p with
  | .error r => refuse r s
  | .ok x => k x

/-- A command that is caller-required with wait option 1 or 2 only (R84, R168 note 1): it gets its caller if it may
wait. -/
def withWaiter (p : Port) (option : Byte) (s : State) (k : Option Slot → Reply) : Reply :=
  if mayWait option then withCaller p s fun x => k (some x) else k none

/-- A command on the task a handle names (R4; R169, steps 4 and 5). -/
def withTask (v : Half) (s : State) (k : Slot → Reply) : Reply :=
  match s.namedTask v with
  | .error r => refuse r s
  | .ok t => k t

/-- A command on the exchange an id names (R72; R169, steps 4 and 5). -/
def withExchange (id : Byte) (s : State) (k : Fin 16 → Reply) : Reply :=
  match s.namedExchange id with
  | .error r => refuse r s
  | .ok x => k x

/-- The caller waits, or a NO_WAIT command is refused. -/
def waitOr (refusal : Result) (p : Port) (caller : Option Slot) (kind : WaitKind) (deadline : Option TickCount)
    (s : State) : Reply :=
  match caller with
  | none => refuse refusal s
  | some x => beganWait (beginWait p x kind deadline s)

end Sys2Proof.Machine
end

