-- ==== Sys2Proof/Machine/EventLine.lean ====
section
/-! DEFINITION. The event lines (chapter 7): sampling, edges, line events, and the meaning of each row EVT_*, LINE_EVENT
and LINE_SAMPLE. -/

namespace Sys2Proof.Machine

/-! ### Line events (R133, R134) -/

/-- A line event with no waiter is latched: the latch count increments up to 15, then the saturation flag is set
(R134). -/
def LineRecord.latchEvent (r : LineRecord) : LineRecord :=
  if r.latch < 15 then { r with latch := r.latch + 1 } else { r with saturated := true }

/-- A line event (R133, R134): the head waiter (ONE) or every waiter from head to tail (ALL) leaves the list and its wait
ends with OK; with no waiter the event is latched. -/
def takeLineEvent (l : Line) (s : State) : State :=
  let r := s.line l
  match r.waiters with
  | [] => s.updLine l LineRecord.latchEvent
  | t :: rest =>
    match r.releaseMode with
    | .one => endWait t (.ok .none) (s.updLine l fun r => { r with waiters := rest })
    | .all => endWaits (t :: rest) (.ok .none) (s.updLine l fun r => { r with waiters := [] })

/-- An edge is recognised on a line (R131, R132): the settled level takes the new level, the pending count becomes 0, and
the edge is a line event if the line's edge mode admits it. -/
def recogniseEdge (l : Line) (e : Edge) (s : State) : State :=
  let s' := s.updLine l fun r => { r with sampled := true, settled := edgeLevel e, pendingCount := false }
  if (s.line l).edgeMode.admits e then takeLineEvent l s' else s'

/-! ### Sampling (R131, R143) -/

/-- The level of a line among the eight sampled ones. -/
def levelOf (levels : Byte) (l : Line) : Bool := levels.getLsbD l.val

/-- The edge that a sample of a level makes on a line: the second consecutive sample that differs from the settled level
(R131). The first sample after a device reset makes none (R143). -/
def LineRecord.edgeAt (r : LineRecord) (level : Bool) : Option Edge :=
  if r.sampled && r.pendingCount && (level != r.settled) then some (if level then .rising else .falling) else none

/-- What a sample of a level that makes no edge does to a line (R131); the first sample after a device reset gives the
settled level (R143). -/
def LineRecord.sample (r : LineRecord) (level : Bool) : LineRecord :=
  if r.sampled then { r with pendingCount := level != r.settled }
  else { r with sampled := true, settled := level, pendingCount := false }

/-- The edges that a sample of the eight lines makes, in line order. -/
def State.edgesAt (s : State) (levels : Byte) : List (Line × Edge) :=
  (List.finRange 8).filterMap fun l => ((s.line l).edgeAt (levelOf levels l)).map fun e => (l, e)

/-- Sort edges by rank, lines of equal rank by line number. -/
def insertEdge (rank : Line → Nat) (e : Line × Edge) : List (Line × Edge) → List (Line × Edge)
  | [] => [e]
  | f :: rest => if rank e.1 ≤ rank f.1 then e :: f :: rest else f :: insertEdge rank e rest

/-- The edges in the order in which they are taken. -/
def orderEdges (rank : Line → Nat) (es : List (Line × Edge)) : List (Line × Edge) := es.foldr (insertEdge rank) []

/-- The lines of a sample that make no edge take their new records. -/
def sampleQuietLines (levels : Byte) (s : State) : State :=
  { s with
    lines := Vector.ofFn fun l : Fin 8 =>
      match (s.line l).edgeAt (levelOf levels l) with
      | some _ => s.line l
      | none => (s.line l).sample (levelOf levels l) }

/-- One sample of EV0..EV7 (R131). Edges on two lines are two edges, each taken whole; which is taken first is a free
value (R132; log entry 9). -/
def sampleLines (levels : Byte) (s : State) : State :=
  let edges := s.edgesAt levels
  let s₁ := sampleQuietLines levels s
  match edges with
  | [] => s₁
  | [e] => recogniseEdge e.1 e.2 s₁
  | e :: f :: rest =>
    (orderEdges (Config.lineRank s.draws) (e :: f :: rest)).foldl (fun s e => recogniseEdge e.1 e.2 s)
      { s₁ with draws := s.draws + 1 }

/-- The settled level EVT.QUERY reports: a free value until the first sample after a device reset (R140, R143; log
entry 2). -/
def State.reportedLevel (s : State) (l : Line) : Bool :=
  if (s.line l).sampled then (s.line l).settled else Config.unsampledLevel s.draws l

/-- The six bytes of EVT.QUERY (R140). -/
def State.lineSnapshot (s : State) (l : Line) : List Byte :=
  let r := s.line l
  [flagByte (s.reportedLevel l), r.edgeMode.code, r.releaseMode.code, countByte r.latch, flagByte r.saturated,
    countByte r.waiters.length]

/-! ### The meanings -/

/-- EVT_CONFIG (R139). -/
def execEvtConfig (p : Port) (s : State) : Host.Outcome State Fault Refusal :=
  command p .evtConfig (fun params s =>
    match params with
    | [line, edge, release] =>
      match lineOf line, edgeModeOf edge, releaseModeOf release with
      | some l, some em, some rm =>
        let r := s.line l
        done [countByte r.latch, flagByte r.saturated]
          (s.updLine l fun r => { r with edgeMode := em, releaseMode := rm, latch := 0, saturated := false })
      | _, _, _ => refuse .badParam s
    | _ => refuse .paramCount s) s

/-- EVT_WAIT (R136, R137). -/
def execEvtWait (p : Port) (s : State) : Host.Outcome State Fault Refusal :=
  command p .evtWait (fun params s =>
    match params with
    | [line, option, t0, t1] =>
      withWaiter p option s fun caller =>
        match lineOf line with
        | none => refuse .badParam s
        | some l =>
          if waitInRange option (half t0 t1) = false then refuse .badParam s
          else if 0 < (s.line l).latch then
            done [countByte ((s.line l).latch - 1)] (s.updLine l fun r => { r with latch := r.latch - 1 })
          else waitOr .empty p caller (.event l) (s.deadlineOf option (half t0 t1)) s
    | _ => refuse .paramCount s) s

/-- EVT_QUERY (R140). A report of an unsampled line's level draws a free value. -/
def execEvtQuery (p : Port) (s : State) : Host.Outcome State Fault Refusal :=
  command p .evtQuery (fun params s =>
    match params with
    | [line] =>
      match lineOf line with
      | none => refuse .badParam s
      | some l =>
        let s' := s.updLine l fun r => { r with saturated := false }
        done (s.lineSnapshot l) (if (s.line l).sampled then s' else { s' with draws := s.draws + 1 })
    | _ => refuse .paramCount s) s

/-- LINE_EVENT (R132, R133, R134). While RST is asserted no line is sampled, so there is no edge (R183). -/
def execLineEvent (l : Line) (e : Edge) (s : State) : Host.Outcome State Fault Refusal :=
  if s.rst then .next s else .next (recogniseEdge l e s)

/-- LINE_SAMPLE (R131). While RST is asserted no line is sampled (R183). -/
def execLineSample (levels : Byte) (s : State) : Host.Outcome State Fault Refusal :=
  if s.rst then .next s else .next (sampleLines levels s)

end Sys2Proof.Machine
end

