-- ==== Sys2Proof/Machine/Exchange.lean ====
section
/-! DEFINITION. The exchange commands (chapters 4 and 5): the meaning of each row XCH_*, MSG_* and CNT_*. -/

namespace Sys2Proof.Machine

/-! ### Shared operations -/

/-- The lowest-numbered CLOSED exchange record (R74). -/
def State.lowestClosed (s : State) : Option (Fin 16) :=
  (List.finRange 16).find? fun x => (s.exchange x).state == .closed

/-- Does the tag lie in the filter's range? (R80) -/
def tagInRange (low high tag : Byte) : Bool := decide (low.toNat ≤ tag.toNat) && decide (tag.toNat ≤ high.toNat)

/-- Does the filter in a waiting receiver's wait record match the tag? (R80) -/
def State.filterMatches (s : State) (tag : Byte) (t : Slot) : Bool :=
  match (s.task t).wait with
  | some ⟨.recv _ low high, _⟩ => tagInRange low high tag
  | _ => false

/-- The first receiver from the head whose filter the tag matches (R85, R89). -/
def State.matchingReceiver (s : State) (b : Mailbox) (tag : Byte) : Option Slot :=
  b.receivers.find? (s.filterMatches tag)

/-- The message a waiting sender holds in its wait record (R86). -/
def State.heldMessage (s : State) (t : Slot) : Option Message :=
  match (s.task t).wait with
  | some ⟨.send _ m, _⟩ => some m
  | _ => none

/-- A receiver gets a message: its entry leaves the list and its wait ends with OK and the message (R85, R91). -/
def handMessage (x : Fin 16) (t : Slot) (m : Message) (s : State) : State :=
  endWait t (.ok (.message m)) (s.updMailbox x fun b => { b with receivers := b.receivers.erase t })

/-- A message is appended at the tail of the queue (R79). -/
def queueMessage (x : Fin 16) (m : Message) (s : State) : State :=
  s.updMailbox x fun b => { b with queue := b.queue ++ [m] }

/-- The mailbox of a MESSAGE exchange. -/
def State.mailbox (s : State) (x : Fin 16) : Option Mailbox :=
  match (s.exchange x).state with
  | .message _ box => some box
  | .closed | .count _ _ => none

/-- A message is offered to the receiver list: the first matching receiver gets it, else it is queued (R89, step 3). -/
def deliverOrQueue (x : Fin 16) (m : Message) (s : State) : State :=
  match (s.mailbox x).bind fun b => s.matchingReceiver b m.tag with
  | some r => handMessage x r m s
  | none => queueMessage x m s

/-- Refill (R89): while the queue is not full and a sender waits, the head sender's wait ends with OK and its message goes
to the first matching receiver or to the queue. Each round takes one sender off the list, so as many rounds as the list
has entries are enough. -/
def refillRounds : Nat → Fin 16 → State → State
  | 0, _, s => s
  | rounds + 1, x, s =>
    match s.mailbox x with
    | none => s
    | some b =>
      if b.queue.length < b.capacity then
        match b.senders with
        | [] => s
        | t :: rest =>
          let held := s.heldMessage t
          let s₁ := endWait t (.ok .none) (s.updMailbox x fun b => { b with senders := rest })
          let s₂ := match held with | some m => deliverOrQueue x m s₁ | none => s₁
          refillRounds rounds x s₂
      else s

/-- Refill after a receive has removed a message (R89). -/
def refill (x : Fin 16) (s : State) : State :=
  refillRounds ((s.mailbox x).elim 0 fun b => b.senders.length) x s

/-- The sender field of a message sent on a port: the occupant's current handle if it is a task that is not doomed, else
the port's mark, PORT-A 8000h or PORT-B 8001h (R84). -/
def State.senderField (s : State) (p : Port) : Half :=
  match (s.port p).occ.occupant with
  | some x => if (s.task x).doomed then (match p with | .A => 0x8000 | .B => 0x8001) else s.handle x
  | none => match p with | .A => 0x8000 | .B => 0x8001

/-- The five result bytes of a received message (R88). -/
def Message.bytes (m : Message) : List Byte := [m.tag] ++ halfBytes m.value ++ halfBytes m.sender

/-- XCH.OPEN with parameters in range (R74, R98): the lowest CLOSED record becomes OPEN; a MESSAGE exchange reserves its
capacity. `cells` is what it reserves. -/
def openExchange (e : ExchangeState) (cells : Nat) (s : State) : Reply :=
  match s.lowestClosed with
  | none => refuse .noExchange s
  | some x =>
    if s.freeCells < cells then refuse .noCells s
    else
      let s' := { s.setExchange x e with freeCells := s.freeCells - cells }
      done [s'.exchangeId x] s'

/-- What an exchange holds when it is closed: the tasks that wait, in the order of R75 (receivers, senders, acquirers,
each list from its head), the messages queued and the cells reserved. -/
def ExchangeState.waiters : ExchangeState → List Slot
  | .closed => []
  | .message _ b => b.receivers ++ b.senders
  | .count _ c => c.acquirers

/-- The number of messages queued (R75). -/
def ExchangeState.queued : ExchangeState → Nat
  | .message _ b => b.queue.length
  | .closed | .count _ _ => 0

/-- The cells reserved (R73). -/
def ExchangeState.cells : ExchangeState → Nat
  | .message _ b => b.capacity
  | .closed | .count _ _ => 0

/-- XCH.CLOSE of an OPEN exchange (R75, R107): every waiter completed CLOSED in order, the queue discarded, the cells
returned, the generation incremented, the record CLOSED. -/
def closeExchange (x : Fin 16) (s : State) : Reply :=
  let e := (s.exchange x).state
  let s₁ := endWaits e.waiters .closed s
  let s₂ :=
    { s₁ with
      exchanges := s₁.exchanges.set x ⟨(s₁.exchange x).generation + 1, .closed⟩
      freeCells := s₁.freeCells + e.cells }
  done [countByte e.waiters.length, countByte e.queued] s₂

/-- The seven bytes of XCH.QUERY (R77, R108). -/
def State.exchangeSnapshot (s : State) (x : Fin 16) : List Byte :=
  match (s.exchange x).state with
  | .closed => []
  | .message order b =>
    [1, order.code, countByte b.capacity, countByte b.queue.length, countByte b.receivers.length,
      countByte b.senders.length, countByte s.freeCells]
  | .count order c =>
    [2, order.code, countByte c.ceiling, countByte c.count, countByte c.acquirers.length, 0, countByte s.freeCells]

/-- MSG.SEND at an exchange that passes its checks (R85). `caller` is the task that may wait. -/
def sendMessage (p : Port) (caller : Option Slot) (deadline : Option TickCount) (id : Byte) (x : Fin 16) (m : Message)
    (s : State) : Reply :=
  match s.mailbox x with
  | none => refuse .wrongKind s
  | some b =>
    match s.matchingReceiver b m.tag with
    | some r => done [1] (handMessage x r m s)
    | none =>
      if b.queue.length < b.capacity then done [2] (queueMessage x m s)
      else waitOr .full p caller (.send id m) deadline s

/-- MSG.RECV at an exchange that passes its checks (R88). -/
def receiveMessage (p : Port) (caller : Option Slot) (deadline : Option TickCount) (id low high : Byte) (x : Fin 16)
    (s : State) : Reply :=
  match s.mailbox x with
  | none => refuse .wrongKind s
  | some b =>
    match b.queue.find? fun m => tagInRange low high m.tag with
    | some m =>
      done m.bytes
        (refill x (s.updMailbox x fun b => { b with queue := b.queue.eraseP fun m => tagInRange low high m.tag }))
    | none => waitOr .empty p caller (.recv id low high) deadline s

/-- CNT.ACQUIRE at an exchange that passes its checks (R101). -/
def acquireUnit (p : Port) (caller : Option Slot) (deadline : Option TickCount) (id : Byte) (x : Fin 16)
    (s : State) : Reply :=
  match (s.exchange x).state with
  | .closed | .message _ _ => refuse .wrongKind s
  | .count _ c =>
    if 0 < c.count then done [countByte (c.count - 1)] (s.updCounter x fun c => { c with count := c.count - 1 })
    else waitOr .empty p caller (.acquire id) deadline s

/-- CNT.RELEASE at an exchange that passes its checks (R102). -/
def releaseUnit (x : Fin 16) (s : State) : Reply :=
  match (s.exchange x).state with
  | .closed | .message _ _ => refuse .wrongKind s
  | .count _ c =>
    match c.acquirers with
    | t :: rest =>
      done [1, 0] (endWait t (.ok .none) (s.updCounter x fun c => { c with acquirers := rest }))
    | [] =>
      if c.count < c.ceiling then
        done [2, countByte (c.count + 1)] (s.updCounter x fun c => { c with count := c.count + 1 })
      else refuse .ceiling s

/-! ### The meanings -/

/-- XCH_OPEN (R74, R98). -/
def execXchOpen (p : Port) (s : State) : Host.Outcome State Fault Refusal :=
  command p .xchOpen (fun params s =>
    match params with
    | [kind, order, size, initial] =>
      match waiterOrderOf order with
      | none => refuse .badParam s
      | some o =>
        if kind = 1 then
          if size = 0 ∨ 16 < size.toNat ∨ initial ≠ 0 then refuse .badParam s
          else openExchange (.message o ⟨size.toNat, [], [], []⟩) size.toNat s
        else if kind = 2 then
          if size = 0 ∨ size.toNat < initial.toNat then refuse .badParam s
          else openExchange (.count o ⟨size.toNat, initial.toNat, []⟩) 0 s
        else refuse .badParam s
    | _ => refuse .paramCount s) s

/-- XCH_CLOSE (R75, R107). -/
def execXchClose (p : Port) (s : State) : Host.Outcome State Fault Refusal :=
  command p .xchClose (fun params s =>
    match params with
    | [id] => withExchange id s fun x => closeExchange x s
    | _ => refuse .paramCount s) s

/-- XCH_QUERY (R77, R108). -/
def execXchQuery (p : Port) (s : State) : Host.Outcome State Fault Refusal :=
  command p .xchQuery (fun params s =>
    match params with
    | [id] => withExchange id s fun x => done (s.exchangeSnapshot x) s
    | _ => refuse .paramCount s) s

/-- MSG_SEND (R84, R85). -/
def execMsgSend (p : Port) (s : State) : Host.Outcome State Fault Refusal :=
  command p .msgSend (fun params s =>
    match params with
    | [id, tag, v0, v1, option, t0, t1] =>
      withWaiter p option s fun caller =>
        if waitInRange option (half t0 t1) = false then refuse .badParam s
        else
          withExchange id s fun x =>
            sendMessage p caller (s.deadlineOf option (half t0 t1)) id x ⟨tag, half v0 v1, s.senderField p⟩ s
    | _ => refuse .paramCount s) s

/-- MSG_RECV (R87, R88). -/
def execMsgRecv (p : Port) (s : State) : Host.Outcome State Fault Refusal :=
  command p .msgRecv (fun params s =>
    match params with
    | [id, low, high, option, t0, t1] =>
      withWaiter p option s fun caller =>
        if waitInRange option (half t0 t1) = false ∨ high.toNat < low.toNat then refuse .badParam s
        else
          withExchange id s fun x =>
            receiveMessage p caller (s.deadlineOf option (half t0 t1)) id low high x s
    | _ => refuse .paramCount s) s

/-- CNT_ACQUIRE (R100, R101). -/
def execCntAcquire (p : Port) (s : State) : Host.Outcome State Fault Refusal :=
  command p .cntAcquire (fun params s =>
    match params with
    | [id, option, t0, t1] =>
      withWaiter p option s fun caller =>
        if waitInRange option (half t0 t1) = false then refuse .badParam s
        else
          withExchange id s fun x => acquireUnit p caller (s.deadlineOf option (half t0 t1)) id x s
    | _ => refuse .paramCount s) s

/-- CNT_RELEASE (R102). -/
def execCntRelease (p : Port) (s : State) : Host.Outcome State Fault Refusal :=
  command p .cntRelease (fun params s =>
    match params with
    | [id] => withExchange id s fun x => releaseUnit x s
    | _ => refuse .paramCount s) s

end Sys2Proof.Machine
end

