-- ==== Sys2Proof/Machine/Pages.lean ====
section
/-! DEFINITION. The page commands (chapter 8): the meaning of each row PAGE_*. -/

namespace Sys2Proof.Machine

/-- PAGE.ALLOC of n pages that passes its checks (R148): granted at once when no request waits and the pool can grant it;
else NO_RUNS or NO_PAGES, or the caller waits. -/
def allocate (p : Port) (x : Slot) (n : Nat) (option : Byte) (deadline : Option TickCount) (s : State) : Reply :=
  match s.pool.waitQueue, s.pool.grantFor n with
  | [], some (e, k) => done [countByte k] (s.updPool (·.createRun e k n x))
  | _, _ =>
    if option = 0 then refuse (if s.pool.freeEntry.isNone then .noRuns else .noPages) s
    else beganWait (beginWait p x (.pages n) deadline s)

/-- Remove the run of an entry and serve the page-wait queue (R153, R155). -/
def removeAndServe (e : Fin 64) (s : State) : State × Nat := serveCount (s.updPool (·.removeRun e))

/-- The run of an entry, by its entry. -/
def PagePool.runAt (p : PagePool) (first : Nat) : Option (Fin 64 × Run) :=
  match p.entryAt first with
  | none => none
  | some e => (p.runs[e]).map fun r => (e, r)

/-- A run of the caller that a page number names (R153, R154): NOT_RUN when the page is not the first page of a run,
NOT_OWNER when the run's owner is another. -/
def State.ownRun (s : State) (x : Slot) (page : Byte) : Except Result (Fin 64 × Run) :=
  match s.pool.runAt page.toNat with
  | none => .error .notRun
  | some (e, r) => if r.owner = x then .ok (e, r) else .error .notOwner

/-- The eight bytes of PAGE.QUERY (R157). -/
def State.pageSnapshot (s : State) (page : Nat) : List Byte :=
  let tail :=
    [countByte s.pool.freePages, countByte (64 - s.pool.runList.length), countByte s.pool.waitQueue.length]
  match (s.pool.entryOf page).bind fun e => s.pool.runs[e] with
  | none => [0, 0, 0, 0, 0] ++ tail
  | some r =>
    [if (s.task r.owner).doomed then 2 else 1] ++ halfBytes (s.handle r.owner)
      ++ [countByte r.first, countByte r.length] ++ tail

/-! ### The meanings -/

/-- PAGE_ALLOC (R147, R148). -/
def execPageAlloc (p : Port) (s : State) : Host.Outcome State Fault Refusal :=
  command p .pageAlloc (fun params s =>
    match params with
    | [n, option, t0, t1] =>
      withCaller p s fun x =>
        if n = 0 ∨ 32 < n.toNat ∨ s.pool.size < n.toNat ∨ waitInRange option (half t0 t1) = false then refuse .badParam s
        else allocate p x n.toNat option (s.deadlineOf option (half t0 t1)) s
    | _ => refuse .paramCount s) s

/-- PAGE_FREE (R153). -/
def execPageFree (p : Port) (s : State) : Host.Outcome State Fault Refusal :=
  command p .pageFree (fun params s =>
    match params with
    | [page] =>
      withCaller p s fun x =>
        if s.pool.size ≤ page.toNat then refuse .badParam s
        else
          match s.ownRun x page with
          | .error r => refuse r s
          | .ok (e, run) =>
            let (s', granted) := removeAndServe e s
            done [countByte run.length, countByte granted] s'
    | _ => refuse .paramCount s) s

/-- PAGE_GIVE (R154). -/
def execPageGive (p : Port) (s : State) : Host.Outcome State Fault Refusal :=
  command p .pageGive (fun params s =>
    match params with
    | [page, lo, hi] =>
      withCaller p s fun x =>
        if s.pool.size ≤ page.toNat then refuse .badParam s
        else
          withTask (half lo hi) s fun t =>
            match s.ownRun x page with
            | .error r => refuse r s
            | .ok (e, run) =>
              done [] (s.updPool fun q => { q with runs := q.runs.set e (some { run with owner := t }) })
    | _ => refuse .paramCount s) s

/-- PAGE_QUERY (R157). -/
def execPageQuery (p : Port) (s : State) : Host.Outcome State Fault Refusal :=
  command p .pageQuery (fun params s =>
    match params with
    | [page] =>
      if s.pool.size ≤ page.toNat then refuse .badParam s else done (s.pageSnapshot page.toNat) s
    | _ => refuse .paramCount s) s

/-- PAGE_RECLAIM (R155). -/
def execPageReclaim (p : Port) (s : State) : Host.Outcome State Fault Refusal :=
  command p .pageReclaim (fun params s =>
    match params with
    | [page] =>
      if s.pool.size ≤ page.toNat then refuse .badParam s
      else
        match s.pool.runAt page.toNat with
        | none => refuse .notRun s
        | some (e, run) =>
          let (s', granted) := removeAndServe e s
          done (halfBytes (s.handle run.owner) ++ [countByte run.length, countByte granted]) s'
    | _ => refuse .paramCount s) s

/-- PAGE_CONFIG (R146). -/
def execPageConfig (p : Port) (s : State) : Host.Outcome State Fault Refusal :=
  command p .pageConfig (fun params s =>
    match params with
    | [size] =>
      if size = 0 ∨ 128 < size.toNat then refuse .badParam s
      else if s.pool.runList ≠ [] ∨ s.pool.waitQueue ≠ [] then refuse .wrongState s
      else
        done [countByte s.pool.size]
          (serve (s.updPool fun q =>
            { q with size := size.toNat, pageMap := Vector.replicate 128 none, freePages := size.toNat }))
    | _ => refuse .paramCount s) s

end Sys2Proof.Machine
end

