-- ==== Sys2Proof/Machine/PortCommand.lean ====
section
/-! DEFINITION. The port commands and the reset inputs (chapter 10): the meaning of each row PORT_*, PEER_DROP,
DEVICE_RESET, BAD_COMMAND, PRST_* and RST_*. -/

namespace Sys2Proof.Machine

/-- PORT.ENABLE on a DISABLED port (R178): ENABLED, re-decided, then PEER_UP on the other port. -/
def enablePort (p : Port) (s : State) : State :=
  (redecide p false (s.updPort p fun r => { r with lifecycle := .enabled })).raise (otherPort p) .peerUp

/-- PORT_ENABLE (R178). -/
def execPortEnable (p : Port) (s : State) : Host.Outcome State Fault Refusal :=
  command p .portEnable (fun params s =>
    match params with
    | [] => if (s.port p).isEnabled then refuse .wrongState s else done [] (enablePort p s)
    | _ => refuse .paramCount s) s

/-- PORT_DROP (R179): the command completes with OK, and the loss of the port then clears RES, DONE and the result
list. -/
def execPortDrop (p : Port) (s : State) : Host.Outcome State Fault Refusal :=
  take p .portDrop (fun params s =>
    match params with
    | [] =>
      if (s.port p).isEnabled then losePortWhole p (complete p (done [] s)) else complete p (refuse .wrongState s)
    | _ => complete p (refuse .paramCount s)) s

/-- PEER_DROP (R179): the loss of the other port. -/
def execPeerDrop (p : Port) (s : State) : Host.Outcome State Fault Refusal :=
  command p .peerDrop (fun params s =>
    match params with
    | [] =>
      if (s.port (otherPort p)).isEnabled then done [] (losePortWhole (otherPort p) s) else refuse .wrongState s
    | _ => refuse .paramCount s) s

/-- DEVICE_RESET (R183): refused PEER_ACTIVE while the other port is ENABLED; carried out, it leaves its own port with
no completion. -/
def execDeviceReset (p : Port) (s : State) : Host.Outcome State Fault Refusal :=
  take p .deviceReset (fun params s =>
    match params with
    | [] => if (s.port (otherPort p)).isEnabled then complete p (refuse .peerActive s) else deviceReset s
    | _ => complete p (refuse .paramCount s)) s

/-- BAD_COMMAND (R169, step 1): a submitted code the part does not know is refused. -/
def execBadCommand (p : Port) (s : State) : Host.Outcome State Fault Refusal :=
  match (s.port p).unit.command with
  | none => .next s
  | some sub => if knownCode sub.code then .next s else .next (complete p (refuse .badCommand s))

/-- PRST_ASSERT (R161, R179): the loss of the port, and its window takes no access. -/
def execPrstAssert (p : Port) (s : State) : Host.Outcome State Fault Refusal :=
  .next (losePortWhole p (s.updPort p fun r => { r with prst := true }))

/-- PRST_RELEASE (R177): the window takes accesses again; the port stays DISABLED. -/
def execPrstRelease (p : Port) (s : State) : Host.Outcome State Fault Refusal :=
  .next (s.updPort p fun r => { r with prst := false })

/-- RST_ASSERT (R183): every block takes its reset values, and the part holds them. -/
def execRstAssert (s : State) : Host.Outcome State Fault Refusal :=
  .next { deviceReset s with rst := true }

/-- RST_RELEASE (R129, R143, R183): the tick period begins afresh and each line takes its settled level from its first
sample. A release with RST not asserted is no release. -/
def execRstRelease (s : State) : Host.Outcome State Fault Refusal :=
  if s.rst then
    .next
      { s with
        rst := false
        time := { s.time with baseDivider := 0, intervalCounter := 0 }
        lines := s.lines.map fun r => { r with sampled := false, pendingCount := false } }
  else .next s

end Sys2Proof.Machine
end

