-- ==== Sys2Proof/Machine/Task.lean ====
section
/-! DEFINITION. The task commands (chapter 1, R40, R122): the meaning of each row TASK_*. -/

namespace Sys2Proof.Machine

/-! ### Shared operations of the task commands -/

/-- The lowest-numbered FREE slot (R1, R12). -/
def State.lowestFree (s : State) : Option Slot :=
  (List.finRange 48).find? fun t => (s.task t).state == .free

/-- The slot's generation increments, modulo 16 (R3). -/
def nextGeneration (t : Slot) (s : State) : State :=
  s.updTask t fun r => { r with generation := r.generation + 1 }

/-- A RUNNING task on port `p` is doomed by a delete or an exit (R10, R15, R16): the generation increments and the
doomed flag is set; a wait it carries is cancelled, with a serving if it was the head of the page-wait queue; the hold
flag and cause are cleared; its disposition becomes FREE. The re-decision of its port is left to the two commands. -/
def doom (p : Port) (t : Slot) (s : State) : State :=
  let wasHead := (s.port p).occ.disposition == some Disposition.wait && s.isPageHead t
  let s₁ := if (s.port p).occ.disposition = some .wait then cancelWait t s else s
  let s₂ := nextGeneration t (s₁.updTask t fun r => { r with doomed := true, holdFlag := false, holdCause := none })
  let s₃ := s₂.setDisposition p .free
  if wasHead then serve s₃ else s₃

/-- The re-decision of a port whose occupant TASK.DELETE has just doomed (R15). An offer posted there is revised (R24, fifth
row, to which section 3.6 gives the pairs of an accept with TASK.DELETE): where the incoming of a SWITCH offer still wins, with
that incoming, so that an accept on its way to the part is refused STALE (log entry 18). -/
def redecideDeleted (p : Port) (s : State) : State :=
  match (s.port p).occ.offer with
  | some o =>
    if (s.port p).isEnabled ∧ o.kind = .switchTask ∧ s.urgency o.incoming ≤ s.urgency (s.selection p) then
      writeOffer p .switchTask o.incoming s
    else redecide p false s
  | none => redecide p false s

/-- TASK.DELETE of the task a handle names (R14, R15). -/
def deleteTask (t : Slot) (s : State) : State :=
  let s₁ := nextGeneration t s
  match (s.task t).state with
  | .free => s
  | .dormant | .held => retire t false s₁
  | .ready => retire t false (unqueue t s₁)
  | .selected =>
    match s.portOfIncoming t with
    | some p => retire t false (redecide p true s₁)
    | none => retire t false s₁
  | .waiting => retire t (s.isPageHead t) (cancelWait t s₁)
  | .running =>
    match s.portOfOccupant t with
    | some p => redecideDeleted p (doom p t s)
    | none => s

/-- The task takes disposition HELD with cause COMMAND and its port is re-decided (R17). -/
def holdOccupant (p : Port) (t : Slot) (s : State) : State :=
  redecide p false ((s.updTask t fun r => { r with holdCause := some .command }).setDisposition p .held)

/-- The hold flag is set, with cause COMMAND; the wait stays in force (R6, R17). -/
def setHoldFlag (t : Slot) (s : State) : State :=
  s.updTask t fun r => { r with holdFlag := true, holdCause := some .command }

/-- The hold flag and the hold cause are cleared; the wait stays in force (R18). -/
def clearHoldFlag (t : Slot) (s : State) : State :=
  s.updTask t fun r => { r with holdFlag := false, holdCause := none }

/-- TASK.HOLD of a task (R17). -/
def holdTask (t : Slot) (s : State) : Reply :=
  match (s.task t).state with
  | .free | .dormant | .held => refuse .wrongState s
  | .ready => done [] (becomeHeld t (unqueue t s))
  | .selected =>
    match s.portOfIncoming t with
    | some p => done [] (redecide p true (becomeHeld t s))
    | none => done [] (becomeHeld t s)
  | .waiting => if (s.task t).holdFlag then refuse .wrongState s else done [] (setHoldFlag t s)
  | .running =>
    match s.portOfOccupant t with
    | none => refuse .wrongState s
    | some p =>
      match (s.port p).occ.disposition with
      | none | some .readyHead | some .readyTail | some .stay => done [] (holdOccupant p t s)
      | some .wait => if (s.task t).holdFlag then refuse .wrongState s else done [] (setHoldFlag t s)
      | some .held | some .free => refuse .wrongState s

/-- TASK.RELEASE of a task (R18). -/
def releaseTask (t : Slot) (s : State) : Reply :=
  match (s.task t).state with
  | .free | .dormant | .ready | .selected => refuse .wrongState s
  | .held => done [] (readyTail t (s.updTask t fun r => { r with holdCause := none }))
  | .waiting => if (s.task t).holdFlag then done [] (clearHoldFlag t s) else refuse .wrongState s
  | .running =>
    match s.portOfOccupant t with
    | none => refuse .wrongState s
    | some p =>
      match (s.port p).occ.disposition with
      | some .held =>
        done [] (redecide p false ((s.updTask t fun r => { r with holdCause := none }).setDisposition p .readyTail))
      | some .wait => if (s.task t).holdFlag then done [] (clearHoldFlag t s) else refuse .wrongState s
      | none | some .readyHead | some .readyTail | some .free | some .stay => refuse .wrongState s

/-- The further effect of TASK.SETPRI of an occupant whose priority has been written, by its port's disposition;
`lessUrgent` says that the new priority is less urgent than the old one (R19). -/
def setpriOccupant (p : Port) (t : Slot) (lessUrgent : Bool) (s : State) : State :=
  match (s.port p).occ.disposition with
  | none => if lessUrgent then redecide p false s else s
  | some .readyHead | some .readyTail => redecide p false (s.setDisposition p .readyTail)
  | some .stay => redecide p false s
  | some .wait => repositionWaiter t s
  | some .held | some .free => s

/-- TASK.SETPRI of a task to a priority (R19). -/
def setPriority (t : Slot) (priority : Fin 32) (s : State) : State :=
  let old := (s.task t).priority
  let write := fun s : State => s.updTask t fun r => { r with priority := priority }
  let lessUrgent := decide (old < priority)
  if priority = old then s
  else
    match (s.task t).state with
    | .free | .dormant | .held => write s
    | .ready => readyTail t (write (unqueue t s))
    | .selected =>
      match s.portOfIncoming t with
      | some p => if lessUrgent then redecide p false (write s) else write s
      | none => write s
    | .waiting => repositionWaiter t (write s)
    | .running =>
      match s.portOfOccupant t with
      | some p => setpriOccupant p t lessUrgent (write s)
      | none => write s

/-- TASK.SETAFF of a task to an affinity (R20). -/
def setAffinity (t : Slot) (a : Affinity) (s : State) : Reply :=
  let s' := s.updTask t fun r => { r with affinity := a }
  match (s.task t).state with
  | .running | .selected => refuse .wrongState s
  | .ready => done [] (if (s.task t).affinity = a then s' else place t s')
  | .free | .dormant | .waiting | .held => done [] s'

/-- Byte 4 of TASK.QUERY: the port of a RUNNING or SELECTED task, the hold cause of a HELD one, the hold flag of a
WAITING one, 0 otherwise (R22). -/
def State.portOrHoldByte (s : State) (t : Slot) : Byte :=
  match (s.task t).state with
  | .running => (s.portOfOccupant t).elim 0 portCode
  | .selected => (s.portOfIncoming t).elim 0 portCode
  | .held => (s.task t).holdCause.elim 0 HoldCause.code
  | .waiting => flagByte (s.task t).holdFlag
  | .free | .dormant | .ready => 0

/-- The eight bytes of TASK.QUERY (R22). -/
def State.taskSnapshot (s : State) (t : Slot) : List Byte :=
  let r := s.task t
  let runs := s.pool.runsOf t
  [r.state.code, BitVec.ofNat 8 r.priority.val, r.affinity.code, s.portOrHoldByte t,
    (r.wait.elim 0 fun w => w.kind.code), (r.wait.elim 0 fun w => w.kind.object),
    countByte runs.length, countByte (runs.map (·.length)).sum]

/-- TASK.YIELD of the caller `x` of port `p` (R40). -/
def yieldPort (p : Port) (x : Slot) (s : State) : State :=
  match s.firstPeer p x with
  | none => s
  | some f =>
    match (s.port p).occ.disposition with
    | none | some .stay => offerTask p f (s.setDisposition p .readyTail)
    | some .readyHead => redecide p false (s.setDisposition p .readyTail)
    | some .readyTail | some .wait | some .held | some .free => s

/-! ### The meanings -/

/-- TASK_CREATE (R12). -/
def execTaskCreate (p : Port) (s : State) : Host.Outcome State Fault Refusal :=
  command p .taskCreate (fun params s =>
    match params with
    | [pri, aff, c0, c1, c2, q] =>
      match priorityOf pri, affinityOf aff with
      | some priority, some affinity =>
        match s.lowestFree with
        | none => refuse .noSlot s
        | some t =>
          let s' := s.updTask t fun r =>
            { blankTask r.generation with
              state := .dormant, priority := priority, affinity := affinity, context := contextOf c0 c1 c2,
              quantum := q, remaining := q }
          done (halfBytes (s'.handle t)) s'
      | _, _ => refuse .badParam s
    | _ => refuse .paramCount s) s

/-- TASK_START (R13). -/
def execTaskStart (p : Port) (s : State) : Host.Outcome State Fault Refusal :=
  command p .taskStart (fun params s =>
    match params with
    | [lo, hi] =>
      withTask (half lo hi) s fun t =>
        if (s.task t).state = .dormant then done [] (readyTail t s) else refuse .wrongState s
    | _ => refuse .paramCount s) s

/-- TASK_DELETE (R14, R15). -/
def execTaskDelete (p : Port) (s : State) : Host.Outcome State Fault Refusal :=
  command p .taskDelete (fun params s =>
    match params with
    | [lo, hi] => withTask (half lo hi) s fun t => done [] (deleteTask t s)
    | _ => refuse .paramCount s) s

/-- TASK_EXIT (R16). -/
def execTaskExit (p : Port) (s : State) : Host.Outcome State Fault Refusal :=
  command p .taskExit (fun params s =>
    match params with
    | [] => withCaller p s fun x => done [] (redecide p false (doom p x s))
    | _ => refuse .paramCount s) s

/-- TASK_HOLD (R17). -/
def execTaskHold (p : Port) (s : State) : Host.Outcome State Fault Refusal :=
  command p .taskHold (fun params s =>
    match params with
    | [lo, hi] => withTask (half lo hi) s fun t => holdTask t s
    | _ => refuse .paramCount s) s

/-- TASK_RELEASE (R18). -/
def execTaskRelease (p : Port) (s : State) : Host.Outcome State Fault Refusal :=
  command p .taskRelease (fun params s =>
    match params with
    | [lo, hi] => withTask (half lo hi) s fun t => releaseTask t s
    | _ => refuse .paramCount s) s

/-- TASK_SETPRI (R19). -/
def execTaskSetpri (p : Port) (s : State) : Host.Outcome State Fault Refusal :=
  command p .taskSetpri (fun params s =>
    match params with
    | [lo, hi, pri] =>
      match priorityOf pri with
      | none => refuse .badParam s
      | some priority => withTask (half lo hi) s fun t => done [] (setPriority t priority s)
    | _ => refuse .paramCount s) s

/-- TASK_SETAFF (R20). -/
def execTaskSetaff (p : Port) (s : State) : Host.Outcome State Fault Refusal :=
  command p .taskSetaff (fun params s =>
    match params with
    | [lo, hi, aff] =>
      match affinityOf aff with
      | none => refuse .badParam s
      | some affinity => withTask (half lo hi) s fun t => setAffinity t affinity s
    | _ => refuse .paramCount s) s

/-- TASK_SETCTX (R21). -/
def execTaskSetctx (p : Port) (s : State) : Host.Outcome State Fault Refusal :=
  command p .taskSetctx (fun params s =>
    match params with
    | [lo, hi, c0, c1, c2] =>
      withTask (half lo hi) s fun t =>
        if (s.task t).state = .dormant ∨ (s.task t).state = .held then
          done [] (s.updTask t fun r => { r with context := contextOf c0 c1 c2 })
        else refuse .wrongState s
    | _ => refuse .paramCount s) s

/-- TASK_QUERY (R22). -/
def execTaskQuery (p : Port) (s : State) : Host.Outcome State Fault Refusal :=
  command p .taskQuery (fun params s =>
    match params with
    | [lo, hi] => withTask (half lo hi) s fun t => done (s.taskSnapshot t) s
    | _ => refuse .paramCount s) s

/-- TASK_SELF (R23). -/
def execTaskSelf (p : Port) (s : State) : Host.Outcome State Fault Refusal :=
  command p .taskSelf (fun params s =>
    match params with
    | [] => withCaller p s fun x => done (halfBytes (s.handle x)) s
    | _ => refuse .paramCount s) s

/-- TASK_YIELD (R40). -/
def execTaskYield (p : Port) (s : State) : Host.Outcome State Fault Refusal :=
  command p .taskYield (fun params s =>
    match params with
    | [] => withCaller p s fun x => done [] (yieldPort p x s)
    | _ => refuse .paramCount s) s

/-- TASK_DELAY (R122). -/
def execTaskDelay (p : Port) (s : State) : Host.Outcome State Fault Refusal :=
  command p .taskDelay (fun params s =>
    match params with
    | [lo, hi] =>
      withCaller p s fun x =>
        if half lo hi = 0 then refuse .badParam s
        else beganWait (beginWait p x .delay (some (s.deadlineIn (half lo hi))) s)
    | _ => refuse .paramCount s) s

end Sys2Proof.Machine
end

