-- ==== Sys2Proof/Machine/Time.lean ====
section
/-! DEFINITION. Time (chapter 6): the meaning of each row TIME_*, TICK, EXPIRY and SLICE_EXPIRY. -/

namespace Sys2Proof.Machine

/-- TIME_CONFIG (R113). -/
def execTimeConfig (p : Port) (s : State) : Host.Outcome State Fault Refusal :=
  command p .timeConfig (fun params s =>
    match params with
    | [lo, hi] =>
      let n := (half lo hi).toNat
      if n = 0 ∨ 10000 < n then refuse .badParam s
      else
        done (halfBytes (BitVec.ofNat 16 s.time.storedN)) { s with time := { s.time with storedN := n } }
    | _ => refuse .paramCount s) s

/-- TIME_READ (R114). -/
def execTimeRead (p : Port) (s : State) : Host.Outcome State Fault Refusal :=
  command p .timeRead (fun params s =>
    match params with
    | [] => done (tickBytes s.time.counter) s
    | _ => refuse .paramCount s) s

/-- TICK (R118). While RST is asserted no tick occurs (R183). -/
def execTick (s : State) : Host.Outcome State Fault Refusal :=
  if s.rst then .next s else .next (tickWhole s)

/-- EXPIRY (R119, R120): the expiry of one due entry, which a tick takes for each (R118). -/
def execExpiry (t : Slot) (s : State) : Host.Outcome State Fault Refusal := .next (expire t s)

/-- SLICE_EXPIRY (R61, R124): the counting that brings the remaining quantum of a SETTLED port's occupant to 0, with the
slice expiry that follows. Where counting the port would not bring it to 0, no slice expiry occurs. -/
def execSliceExpiry (p : Port) (s : State) : Host.Outcome State Fault Refusal :=
  if s.slices p then .next (countQuantum p s) else .next s

end Sys2Proof.Machine
end

