-- ==== Sys2Proof/Machine/Window.lean ====
section
/-! DEFINITION. The bus window (chapter 9): what each location reads, which row of the table an access is, and the
meaning of each row that is an access. -/

namespace Sys2Proof.Machine

/-! ### What the window shows (R161, R162, R173) -/

/-- STAT (R162). -/
def State.stat (s : State) (p : Port) : Byte :=
  let r := s.port p
  (if r.busy then 0x01 else 0) ||| (if r.unit.overrun then 0x02 else 0) ||| (if r.isEnabled then 0x04 else 0)
    ||| (if r.offered then 0x08 else 0) ||| (if (s.port (otherPort p)).isEnabled then 0x10 else 0)

/-- The payload locations 13h to 17h of a delivery (R173). -/
def payloadByte (d : Option Delivery) (i : Nat) : Byte :=
  match d with
  | some (.ok (.message m)) => (m.tag :: halfBytes m.value ++ halfBytes m.sender).getD i 0
  | some (.ok (.page k)) => if i = 0 then k else 0
  | some (.ok .none) | some .timeout | some .closed | some .lost | none => 0

/-- The offer locations 09h to 17h of a port with an offer posted (R173). -/
def State.offerByte (s : State) (o : Offer) (location : Nat) : Byte :=
  match location with
  | 0x09 => o.kind.code
  | 0x0A => o.incoming.elim 0 fun t => loByte (s.handle t)
  | 0x0B => o.incoming.elim 0 fun t => hiByte (s.handle t)
  | 0x0C => o.incomingContext.elim 0 (contextByte 0)
  | 0x0D => o.incomingContext.elim 0 (contextByte 1)
  | 0x0E => o.incomingContext.elim 0 (contextByte 2)
  | 0x0F => o.outgoingContext.elim 0 (contextByte 0)
  | 0x10 => o.outgoingContext.elim 0 (contextByte 1)
  | 0x11 => o.outgoingContext.elim 0 (contextByte 2)
  | 0x12 => o.delivery.elim 0 Delivery.code
  | 0x13 => payloadByte o.delivery 0
  | 0x14 => payloadByte o.delivery 1
  | 0x15 => payloadByte o.delivery 2
  | 0x16 => payloadByte o.delivery 3
  | 0x17 => payloadByte o.delivery 4
  | _ => 0

/-- What a read of a location returns (R161); the effect of a read of PRM is the row PRM_READ. While the window takes no
access a read returns 0 (R161; for RST, R183). -/
def State.readLocation (s : State) (p : Port) (location : BitVec 5) : Byte :=
  let r := s.port p
  if s.windowOpen p = false then 0
  else
    match location.toNat with
    | 0x00 => s.stat p
    | 0x01 => r.unit.res
    | 0x02 => r.unit.results.headD 0
    | 0x03 => countByte r.unit.staging.length
    | 0x04 => countByte r.unit.results.length
    | 0x05 => r.unit.intp.setWidth 8
    | 0x06 => r.unit.inte.setWidth 8
    | 0x08 => r.occ.sequence
    | 0x18 => r.occ.acceptStatus.code
    | n => r.occ.offer.elim 0 fun o => s.offerByte o n

/-! ### Which row an access is (R161, R168) -/

/-- The row of the table that a write to a location is (R161). -/
def writeRow (p : Port) (location : BitVec 5) (value : Byte) : Instr :=
  match location.toNat with
  | 0x00 => .cmdWrite p value
  | 0x02 => .prmWrite p value
  | 0x05 => .intpWrite p value
  | 0x06 => .inteWrite p value
  | 0x18 => .accept p value
  | _ => .writeIgnored p location value

/-- The row of the table that the taking of a command is (R168). -/
def CommandCode.row (c : CommandCode) (p : Port) : Instr :=
  match c with
  | .taskCreate => .taskCreate p
  | .taskStart => .taskStart p
  | .taskDelete => .taskDelete p
  | .taskExit => .taskExit p
  | .taskHold => .taskHold p
  | .taskRelease => .taskRelease p
  | .taskSetpri => .taskSetpri p
  | .taskSetaff => .taskSetaff p
  | .taskSetctx => .taskSetctx p
  | .taskQuery => .taskQuery p
  | .taskSelf => .taskSelf p
  | .taskYield => .taskYield p
  | .taskDelay => .taskDelay p
  | .xchOpen => .xchOpen p
  | .xchClose => .xchClose p
  | .xchQuery => .xchQuery p
  | .msgSend => .msgSend p
  | .msgRecv => .msgRecv p
  | .cntAcquire => .cntAcquire p
  | .cntRelease => .cntRelease p
  | .evtConfig => .evtConfig p
  | .evtWait => .evtWait p
  | .evtQuery => .evtQuery p
  | .pageAlloc => .pageAlloc p
  | .pageFree => .pageFree p
  | .pageGive => .pageGive p
  | .pageQuery => .pageQuery p
  | .pageReclaim => .pageReclaim p
  | .pageConfig => .pageConfig p
  | .timeConfig => .timeConfig p
  | .timeRead => .timeRead p
  | .portEnable => .portEnable p
  | .portDrop => .portDrop p
  | .peerDrop => .peerDrop p
  | .deviceReset => .deviceReset p

/-- The row that takes a command of a written code: a code the part does not know is taken as BAD_COMMAND (R168,
R169). -/
def takingRow (p : Port) (code : Byte) : Instr :=
  match CommandCode.all.find? fun c => c.code == code with
  | some c => c.row p
  | none => .badCommand p

/-! ### The meanings -/

/-- A write of PRM (R163). -/
def PortUnit.stage (value : Byte) (u : PortUnit) : PortUnit :=
  if u.staging.length < 8 then { u with staging := u.staging ++ [value] } else { u with overrun := true }

/-- A write of CMD (R164): READY, the command is submitted; BUSY, the write is ignored and the overrun flag set. -/
def PortUnit.submit (code : Byte) (u : PortUnit) : PortUnit :=
  match u.command with
  | some _ => { u with overrun := true }
  | none =>
    { u with
      command := some ⟨code, u.staging⟩
      staging := []
      results := []
      res := 0
      overrun := false
      intp := u.intp &&& ~~~Cause.done.mask }

/-- An access that the window takes only while it is open (R161, R183). -/
def access (p : Port) (f : State → State) (s : State) : Host.Outcome State Fault Refusal :=
  if s.windowOpen p then .next (f s) else .next s

/-- PRM_WRITE (R163). -/
def execPrmWrite (p : Port) (value : Byte) (s : State) : Host.Outcome State Fault Refusal :=
  access p (fun s => s.updUnit p (·.stage value)) s

/-- PRM_READ (R166): the byte is driven onto the data lines and leaves the result list; with no result byte left, or
while the window takes no access, the read returns 0. -/
def execPrmRead (p : Port) (s : State) : Host.Outcome State Fault Refusal :=
  if s.windowOpen p then
    .next (s.updUnit p fun u => { u with dataOut := u.results.headD 0, results := u.results.tail })
  else .next (s.updUnit p fun u => { u with dataOut := 0 })

/-- INTP_WRITE (R171). -/
def execIntpWrite (p : Port) (value : Byte) (s : State) : Host.Outcome State Fault Refusal :=
  access p (fun s => s.updUnit p fun u => { u with intp := u.intp &&& ~~~(value.setWidth 4) }) s

/-- INTE_WRITE (R172). -/
def execInteWrite (p : Port) (value : Byte) (s : State) : Host.Outcome State Fault Refusal :=
  access p (fun s => s.updUnit p fun u => { u with inte := value.setWidth 4 }) s

/-- ACCEPT (R62, R174). -/
def execAccept (p : Port) (value : Byte) (s : State) : Host.Outcome State Fault Refusal :=
  access p (takeAccept p value) s

/-- WRITE_IGNORED (R161). -/
def execWriteIgnored (_p : Port) (_location : BitVec 5) (_value : Byte) (s : State) : Host.Outcome State Fault Refusal :=
  .next s

/-- CMD_WRITE (R164). -/
def execCmdWrite (p : Port) (code : Byte) (s : State) : Host.Outcome State Fault Refusal :=
  access p (fun s => s.updUnit p (·.submit code)) s

end Sys2Proof.Machine
end

