-- ==== Sys2Proof/Machine/Dispatch.lean ====
section
/-! DEFINITION. The dispatch: one arm for each command. -/

namespace Sys2Proof.Machine

/-- The effect of a command on everything but the queue of waiting commands. -/
def exec (i : Instr) (s : State) : Host.Outcome State Fault Refusal :=
  match i with
  | .taskCreate port => Sys2Proof.Machine.execTaskCreate port s
  | .taskStart port => Sys2Proof.Machine.execTaskStart port s
  | .taskDelete port => Sys2Proof.Machine.execTaskDelete port s
  | .taskExit port => Sys2Proof.Machine.execTaskExit port s
  | .taskHold port => Sys2Proof.Machine.execTaskHold port s
  | .taskRelease port => Sys2Proof.Machine.execTaskRelease port s
  | .taskSetpri port => Sys2Proof.Machine.execTaskSetpri port s
  | .taskSetaff port => Sys2Proof.Machine.execTaskSetaff port s
  | .taskSetctx port => Sys2Proof.Machine.execTaskSetctx port s
  | .taskQuery port => Sys2Proof.Machine.execTaskQuery port s
  | .taskSelf port => Sys2Proof.Machine.execTaskSelf port s
  | .taskYield port => Sys2Proof.Machine.execTaskYield port s
  | .taskDelay port => Sys2Proof.Machine.execTaskDelay port s
  | .xchOpen port => Sys2Proof.Machine.execXchOpen port s
  | .xchClose port => Sys2Proof.Machine.execXchClose port s
  | .xchQuery port => Sys2Proof.Machine.execXchQuery port s
  | .msgSend port => Sys2Proof.Machine.execMsgSend port s
  | .msgRecv port => Sys2Proof.Machine.execMsgRecv port s
  | .cntAcquire port => Sys2Proof.Machine.execCntAcquire port s
  | .cntRelease port => Sys2Proof.Machine.execCntRelease port s
  | .evtConfig port => Sys2Proof.Machine.execEvtConfig port s
  | .evtWait port => Sys2Proof.Machine.execEvtWait port s
  | .evtQuery port => Sys2Proof.Machine.execEvtQuery port s
  | .pageAlloc port => Sys2Proof.Machine.execPageAlloc port s
  | .pageFree port => Sys2Proof.Machine.execPageFree port s
  | .pageGive port => Sys2Proof.Machine.execPageGive port s
  | .pageQuery port => Sys2Proof.Machine.execPageQuery port s
  | .pageReclaim port => Sys2Proof.Machine.execPageReclaim port s
  | .pageConfig port => Sys2Proof.Machine.execPageConfig port s
  | .timeConfig port => Sys2Proof.Machine.execTimeConfig port s
  | .timeRead port => Sys2Proof.Machine.execTimeRead port s
  | .portEnable port => Sys2Proof.Machine.execPortEnable port s
  | .portDrop port => Sys2Proof.Machine.execPortDrop port s
  | .peerDrop port => Sys2Proof.Machine.execPeerDrop port s
  | .deviceReset port => Sys2Proof.Machine.execDeviceReset port s
  | .badCommand port => Sys2Proof.Machine.execBadCommand port s
  | .prmWrite port value => Sys2Proof.Machine.execPrmWrite port value s
  | .prmRead port => Sys2Proof.Machine.execPrmRead port s
  | .intpWrite port value => Sys2Proof.Machine.execIntpWrite port value s
  | .inteWrite port value => Sys2Proof.Machine.execInteWrite port value s
  | .accept port value => Sys2Proof.Machine.execAccept port value s
  | .writeIgnored port location value => Sys2Proof.Machine.execWriteIgnored port location value s
  | .prstAssert port => Sys2Proof.Machine.execPrstAssert port s
  | .prstRelease port => Sys2Proof.Machine.execPrstRelease port s
  | .rstAssert => Sys2Proof.Machine.execRstAssert s
  | .rstRelease => Sys2Proof.Machine.execRstRelease s
  | .lineEvent line edge => Sys2Proof.Machine.execLineEvent line edge s
  | .tick => Sys2Proof.Machine.execTick s
  | .expiry task => Sys2Proof.Machine.execExpiry task s
  | .sliceExpiry port => Sys2Proof.Machine.execSliceExpiry port s
  | .cmdWrite port code => Sys2Proof.Machine.execCmdWrite port code s
  | .lineSample levels => Sys2Proof.Machine.execLineSample levels s

end Sys2Proof.Machine
end

