-- ==== Sys2Proof/Machine/Step.lean ====
section
/-! DEFINITION. One step: the command at the front of the queue is taken; with no command waiting, one CLK period of the
tick divider passes (log entry 7). -/

namespace Sys2Proof.Machine

/-- One step of the part. -/
def step (s : State) : Host.Outcome State Fault Refusal :=
  match s.pending with
  | [] => .next (clkPeriod s)
  | i :: rest => exec i { s with pending := rest }

/-- The state with the command that a word of the table spells put at the front of its queue; unchanged where the word
spells none. -/
def State.withFetchWord (s : State) (nbits w : Nat) : State :=
  match decodeTableWord nbits w with
  | some i => { s with pending := i :: s.pending }
  | none => s

end Sys2Proof.Machine
end

