-- ==== Sys2Proof/Safety.lean ====
section
/-! DEFINITION. The laws the manual states of the part's records, as predicates of the state: a state is safe when they
hold, and the statements of the package say which of them every step keeps. At the end, the words the statements use for a
submitted command, its caller and its completion. -/

namespace Sys2Proof.Machine

/-- The Port Unit's bounds: at most 8 staged bytes, 8 parameter bytes and 8 result bytes, and while a command is
submitted RES reads 00h and the result list is empty (R163, R164). -/
def PortUnit.Bounded (u : PortUnit) : Prop :=
  u.staging.length ≤ 8 ∧ u.results.length ≤ 8 ∧
    ∀ c, u.command = some c → c.params.length ≤ 8 ∧ u.res = 0 ∧ u.results = []

/-- A DISABLED port has occupant IDLE and switch state SETTLED, with no offer (R45); and no disposition. -/
def PortRecord.QuietWhenDisabled (r : PortRecord) : Prop :=
  r.lifecycle = .disabled → r.occ.occupant = none ∧ r.occ.offer = none ∧ r.occ.disposition = none

/-- While a port's PRST is asserted the port is DISABLED, and no interrupt cause is pending on it (R171, R177, R180). -/
def PortRecord.QuietUnderReset (r : PortRecord) : Prop :=
  r.prst = true → r.lifecycle = .disabled ∧ r.unit.intp = 0 ∧ r.unit.command = none

/-- The occupant's disposition exists exactly while the port is OFFERED with a task as occupant (R45, R49), and STAY
stands exactly in a CONTINUE offer (R49). -/
def Occupancy.DispositionFits (o : Occupancy) : Prop :=
  (o.disposition.isSome ↔ (o.offer.isSome ∧ o.occupant.isSome)) ∧
    ∀ f, o.offer = some f → (o.disposition = some .stay ↔ (f.kind = .continueTask ∧ o.occupant.isSome))

/-- The sequence of a posted offer is the port's sequence counter (R46, R47). -/
def Occupancy.SequenceFits (o : Occupancy) : Prop := ∀ f, o.offer = some f → f.sequence = o.sequence

/-- Exactly the RUNNING tasks are occupants, each of one port (R45). -/
def State.OccupantLaw (s : State) : Prop :=
  ∀ t : Slot,
    ((s.task t).state = .running ↔ (s.portA.occ.occupant = some t ∨ s.portB.occ.occupant = some t)) ∧
      ¬(s.portA.occ.occupant = some t ∧ s.portB.occ.occupant = some t)

/-- The occupant and the incoming of every port are permitted on that port by their affinity (R45). -/
def State.AffinityLaw (s : State) : Prop :=
  ∀ p : Port, ∀ t : Slot,
    ((s.port p).occ.occupant = some t ∨ s.isIncoming p t = true) → (s.task t).affinity.permits p = true

/-- Exactly the SELECTED tasks are the incoming of a posted SWITCH offer, each of one (R47). -/
def State.IncomingLaw (s : State) : Prop :=
  ∀ t : Slot,
    ((s.task t).state = .selected ↔ (s.isIncoming .A t = true ∨ s.isIncoming .B t = true)) ∧
      ¬(s.isIncoming .A t = true ∧ s.isIncoming .B t = true)

/-- A task is READY exactly when it appears in a ready queue; then once, in the queue of its own priority (R29). -/
def State.QueueLaw (s : State) : Prop :=
  ∀ t : Slot, ∀ level : Fin 32,
    (s.queue level).count t = if (s.task t).state = .ready ∧ (s.task t).priority = level then 1 else 0

/-- For each ENABLED port, no READY task that is permitted on that port is more urgent than the port's next (R38). -/
def State.UrgencyLaw (s : State) : Prop :=
  ∀ p : Port, ∀ t : Slot,
    (s.task t).state = .ready → s.eligible p t = true → s.urgency (s.next p) ≤ (s.task t).priority.val

/-- The timer list (R115): at most one entry per task; an entry for a task exactly when its wait record has that
deadline. -/
def State.TimerLaw (s : State) : Prop :=
  (s.time.timers.map (·.task)).Nodup ∧
    ∀ t : Slot, ∀ d : TickCount,
      (⟨t, d⟩ : TimerEntry) ∈ s.time.timers ↔ ((s.task t).wait.bind fun w => w.deadline) = some d

/-- The timer list is in the order of remaining counts, each 1..65535 (R115, R116). -/
def State.TimerOrder (s : State) : Prop :=
  (s.time.timers.map fun e => remainingCount s.time.counter e.deadline).Pairwise (· ≤ ·) ∧
    ∀ e ∈ s.time.timers, 1 ≤ remainingCount s.time.counter e.deadline ∧ remainingCount s.time.counter e.deadline ≤ 65535

/-- The dividers and N (R112, R113). -/
def TickUnit.Bounded (u : TickUnit) : Prop :=
  1 ≤ u.storedN ∧ u.storedN ≤ 10000 ∧ 1 ≤ u.periodN ∧ u.periodN ≤ 10000 ∧ u.baseDivider < 200 ∧
    u.intervalCounter < u.periodN

/-- The laws of an exchange record by itself: a message queue within its capacity (R79) and full while senders wait
(R81); a count between 0 and its ceiling, and 0 while acquirers wait (R97). -/
def ExchangeState.Lawful : ExchangeState → Prop
  | .closed => True
  | .message _ b => 1 ≤ b.capacity ∧ b.capacity ≤ 16 ∧ b.queue.length ≤ b.capacity ∧
      (b.senders ≠ [] → b.queue.length = b.capacity)
  | .count _ c => 1 ≤ c.ceiling ∧ c.ceiling ≤ 255 ∧ c.count ≤ c.ceiling ∧ (c.acquirers ≠ [] → c.count = 0)

/-- The cells that the OPEN MESSAGE exchanges reserve. -/
def State.reservedCells (s : State) : Nat := (s.exchanges.toList.map fun e => e.state.cells).sum

/-- The free number of the cell pool is 64 less the reserved cells (R73). -/
def State.CellLaw (s : State) : Prop := s.freeCells + s.reservedCells = 64

/-- No message queued at an exchange has a tag inside the filter of a receiver waiting there (R80). -/
def State.FilterLaw (s : State) : Prop :=
  ∀ x : Fin 16, ∀ b, s.mailbox x = some b → ∀ m ∈ b.queue, ∀ t ∈ b.receivers, s.filterMatches m.tag t = false

/-- A line with waiting tasks has latch count 0, and the latch count is at most 15 (R130). -/
def LineRecord.Lawful (r : LineRecord) : Prop := r.latch ≤ 15 ∧ (r.waiters ≠ [] → r.latch = 0)

/-- The task has a wait record of a kind that meets a condition (R7). -/
def State.waitsFor (s : State) (t : Slot) (k : WaitKind → Prop) : Prop := ∃ w, (s.task t).wait = some w ∧ k w.kind

/-- Exactly the tasks that wait on an object are entries of its list, each once, and a wait on an exchange names by its
current id an OPEN exchange of its kind (R7, R81, R97, R99, R135, R149). -/
structure State.ListLaw (s : State) : Prop where
  receivers : ∀ x o b, (s.exchange x).state = .message o b →
    b.receivers.Nodup ∧ ∀ t, t ∈ b.receivers ↔ s.waitsFor t fun k => ∃ low high, k = .recv (s.exchangeId x) low high
  senders : ∀ x o b, (s.exchange x).state = .message o b →
    b.senders.Nodup ∧ ∀ t, t ∈ b.senders ↔ s.waitsFor t fun k => ∃ m, k = .send (s.exchangeId x) m
  acquirers : ∀ x o c, (s.exchange x).state = .count o c →
    c.acquirers.Nodup ∧ ∀ t, t ∈ c.acquirers ↔ s.waitsFor t fun k => k = .acquire (s.exchangeId x)
  lines : ∀ l, (s.line l).waiters.Nodup ∧ ∀ t, t ∈ (s.line l).waiters ↔ s.waitsFor t fun k => k = .event l
  pages : s.pool.waitQueue.Nodup ∧ ∀ t, t ∈ s.pool.waitQueue ↔ s.waitsFor t fun k => ∃ n, k = .pages n
  openMessage : ∀ t id, (s.waitsFor t fun k => (∃ low high, k = .recv id low high) ∨ ∃ m, k = .send id m) →
    ∃ x o b, id = s.exchangeId x ∧ (s.exchange x).state = .message o b
  openCount : ∀ t id, (s.waitsFor t fun k => k = .acquire id) →
    ∃ x o c, id = s.exchangeId x ∧ (s.exchange x).state = .count o c
  asked : ∀ t n, (s.waitsFor t fun k => k = .pages n) → 1 ≤ n ∧ n ≤ 32

/-- A wait record is present exactly in WAITING and in a departing occupant with disposition WAIT, and its task is one entry
of the list of the object it waits on and of no other (R2, R7). -/
def State.WaitLaw (s : State) : Prop :=
  (∀ t : Slot, (s.task t).wait.isSome ↔
    ((s.task t).state = .waiting ∨
      ∃ p : Port, (s.port p).occ.occupant = some t ∧ (s.port p).occ.disposition = some .wait)) ∧
    s.ListLaw

/-- The doomed tasks are exactly the departing occupants with disposition FREE (R10, R49). -/
def State.DoomedLaw (s : State) : Prop :=
  ∀ t : Slot, (s.task t).doomed = true ↔
    ∃ p : Port, (s.port p).occ.occupant = some t ∧ (s.port p).occ.disposition = some .free

/-- Every page of the pool is free or belongs to exactly one run, whose pages lie inside the pool and whose owner is not
FREE; the free number counts the free pages (R144, R145). -/
def State.PoolLaw (s : State) : Prop :=
  1 ≤ s.pool.size ∧ s.pool.size ≤ 128 ∧
    (∀ k : Fin 128, ∀ e : Fin 64,
      s.pool.entryOf k.val = some e ↔
        ∃ r, s.pool.runs[e] = some r ∧ r.first ≤ k.val ∧ k.val < r.first + r.length) ∧
    (∀ e : Fin 64, ∀ r, s.pool.runs[e] = some r →
      1 ≤ r.length ∧ r.length ≤ 32 ∧ r.first + r.length ≤ s.pool.size ∧ (s.task r.owner).state ≠ .free) ∧
    s.pool.freePages + (s.pool.runList.map (·.length)).sum = s.pool.size

/-- Whenever the page-wait queue is non-empty, its head request cannot be granted (R149). -/
def State.HeadBlocked (s : State) : Prop :=
  ∀ t, s.pool.waitQueue.head? = some t → s.pool.grantFor (s.askedPages t) = none

/-! ### The laws that a step keeps together -/

/-- The laws of one port's records that hold of each port by itself: the Port Unit's bounds (R163, R164), a DISABLED port
without occupancy (R45), a port under PRST (R171, R177) and the sequence of a posted offer (R46). -/
structure PortRecord.Lawful (r : PortRecord) : Prop where
  bounded : r.unit.Bounded
  quietWhenDisabled : r.QuietWhenDisabled
  quietUnderReset : r.QuietUnderReset
  sequenceFits : r.occ.SequenceFits

/-- The places of the tasks agree with the Dispatcher's records: queues (R29), occupants (R45), incomings (R47),
dispositions (R49), no occupancy on a DISABLED port (R45); and in a CONTINUE offer the incoming is the occupant (R48). -/
structure State.DispatcherLaw (s : State) : Prop where
  queues : s.QueueLaw
  occupants : s.OccupantLaw
  incomings : s.IncomingLaw
  dispositions : ∀ p, (s.port p).occ.DispositionFits
  quiet : ∀ p, (s.port p).QuietWhenDisabled
  continues : ∀ p o, (s.port p).occ.offer = some o → o.kind = .continueTask → o.incoming = (s.port p).occ.occupant

/-- Every law of the records together. -/
structure State.Lawful (s : State) : Prop where
  ports : ∀ p, (s.port p).Lawful
  dispatcher : s.DispatcherLaw
  urgency : s.UrgencyLaw
  affinity : s.AffinityLaw
  doomed : s.DoomedLaw
  exchanges : ∀ x, (s.exchange x).state.Lawful
  cells : s.CellLaw
  filters : s.FilterLaw
  lines : ∀ l, (s.line l).Lawful
  ticks : s.time.Bounded
  timers : s.TimerLaw
  timerOrder : s.TimerOrder
  waits : s.WaitLaw
  pool : s.PoolLaw
  headBlocked : s.HeadBlocked

/-! ### The words of the statements -/

/-- A command of a known code and its parameter bytes have been submitted on the port and are not yet taken (R164). -/
def State.Submitted (s : State) (p : Port) (c : CommandCode) (params : List Byte) : Prop :=
  (s.port p).unit.command = some ⟨c.code, params⟩

/-- The state after the completion of the command submitted on the port (R165): the unit is READY, RES has the code and the
result list the bytes, and DONE, bit 1 of INTP, is pending unless PRST is asserted (R171). -/
def State.completed (s : State) (p : Port) (code : Byte) (bytes : List Byte) : State :=
  s.updPort p fun r =>
    { r with
      unit :=
        { r.unit with
          command := none
          res := code
          results := bytes
          intp := if r.prst then r.unit.intp else r.unit.intp ||| 0b0010 } }

/-- The port is ENABLED and the task's affinity permits it (R28). -/
def State.EligibleFor (s : State) (p : Port) (t : Slot) : Prop :=
  (s.port p).lifecycle = .enabled ∧
    ((s.task t).affinity = .either ∨ (p = .A ∧ (s.task t).affinity = .portA) ∨ (p = .B ∧ (s.task t).affinity = .portB))

/-- The task is the first one in the queue of a level that is eligible for the port (R32, R40, R61). -/
def State.FirstEligible (s : State) (p : Port) (level : Fin 32) (t : Slot) : Prop :=
  ∃ before after, s.queue level = before ++ t :: after ∧ s.EligibleFor p t ∧ ∀ u ∈ before, ¬s.EligibleFor p u

/-- The port is a candidate for the task: the task is eligible for it and strictly more urgent than its next (R33). -/
def State.Candidate (s : State) (t : Slot) (p : Port) : Prop :=
  s.EligibleFor p t ∧ ∀ y, s.next p = some y → (s.task t).priority < (s.task y).priority

/-- The task is the occupant of the port and of no other (R45). -/
def State.Occupies (s : State) (t : Slot) (p : Port) : Prop :=
  (s.port p).occ.occupant = some t ∧ (s.port (otherPort p)).occ.occupant ≠ some t

/-- The task is the incoming of the port's SWITCH offer and of no other (R47). -/
def State.IncomingOn (s : State) (t : Slot) (p : Port) : Prop :=
  s.isIncoming p t = true ∧ s.isIncoming (otherPort p) t = false

/-- The task is the port's occupant, and the caller checks let it call (R169, step 3). -/
structure State.IsCaller (s : State) (p : Port) (x : Slot) : Prop where
  occupant : (s.port p).occ.occupant = some x
  notDoomed : (s.task x).doomed = false
  notWaiting : (s.port p).occ.disposition ≠ some .wait
  notHeld : (s.port p).occ.disposition ≠ some .held

/-- Who may submit a command with a wait option: anyone with NO_WAIT; with FOREVER or TIMED the caller must pass its checks
(R84, R168 note 1). -/
def State.MayAsk (s : State) (p : Port) (option : Byte) : Prop :=
  option = 1 ∨ option = 2 → ∃ x, s.IsCaller p x

/-- The wait option is one of the three, and a TIMED one has a timeout (R84). -/
def OptionInRange (option : Byte) (timeout : Half) : Prop :=
  option = 0 ∨ option = 1 ∨ (option = 2 ∧ timeout ≠ 0)

/-- The deadline that a wait option in range gives: with TIMED the tick counter plus the timeout (R84, R116). -/
def State.DeadlineIs (s : State) (option : Byte) (timeout : Half) (d : Option TickCount) : Prop :=
  (option = 1 ∧ d = none) ∨ (option = 2 ∧ d = some (s.time.counter + timeout.setWidth 32))

/-- A command is caller-required: always, or with a wait option of 1 or 2 (R168, Caller column and note 1). -/
def callerRequired (c : CommandCode) (params : List Byte) : Bool :=
  match c with
  | .taskExit | .taskSelf | .taskYield | .taskDelay | .pageAlloc | .pageFree | .pageGive => true
  | .msgSend => mayWait (params.getD 4 0)
  | .msgRecv => mayWait (params.getD 3 0)
  | .cntAcquire | .evtWait => mayWait (params.getD 1 0)
  | _ => false

/-- The beginning of a wait spelled out (R51, R52): the record, the object's list, the timer entry, disposition WAIT and the
re-decision; the command completes with WAITING. -/
def State.waitBegun (s : State) (p : Port) (x : Slot) (kind : WaitKind) (d : Option TickCount) : State :=
  (redecide p false
    ((insertTimer x d (joinList x kind (s.updTask x fun r => { r with wait := some ⟨kind, d⟩, delivery := none }))).updOcc
      p fun o => { o with disposition := some .wait })).completed p 0x01 []

end Sys2Proof.Machine
end

