-- ==== Sys2Proof/Certificates/Slice0/Obligations.lean ====
section
/-! DEFINITION. The statements for the provers, block by block. The conclusion of a command's statement is an equation
`exec c s = .next u`, so it says both that the command completes and what its next state is; where a shared operation of
the Dispatcher, the waits or the Page Pool takes part, the statement names it, and a statement of its own says what that
operation does. -/

section Statements
open Sys2Proof Sys2Proof.Machine

/-! ### The queue and the clock -/

/-- The command at the front of the queue is taken, on the state with the queue's rest. That commands and events stand in one
queue, in the order in which they are taken, is the model's choice (log entry 15). -/
def Obligations.StepTakesTheFrontCommand : Prop :=
  ∀ (c : Instr) (rest : List Instr) (s : State), step { s with pending := c :: rest } = exec c { s with pending := rest }

/-- Every command, on every state, answers a next state, and none touches the queue. That no command or event stops the part
is read from the spec by inference (log entry 16); a row whose event cannot occur leaves the state (log entry 6). -/
def Obligations.EveryCommandAnswersANextState : Prop :=
  ∀ (c : Instr) (s : State), ∃ u, exec c s = .next u ∧ u.pending = s.pending

/-- The model's choice (log entry 7) over R112: with no command waiting a step is one CLK period of the tick divider. -/
def Obligations.IdleStepCountsOneClkPeriod : Prop :=
  ∀ s : State, s.pending = [] →
    (s.rst = true → step s = .next s) ∧
    (s.rst = false → s.time.baseDivider + 1 < 200 →
      step s = .next { s with time := { s.time with baseDivider := s.time.baseDivider + 1 } }) ∧
    (s.rst = false → 200 ≤ s.time.baseDivider + 1 → s.time.intervalCounter + 1 < s.time.periodN →
      step s =
        .next { s with time := { s.time with baseDivider := 0, intervalCounter := s.time.intervalCounter + 1 } }) ∧
    (s.rst = false → 200 ≤ s.time.baseDivider + 1 → s.time.periodN ≤ s.time.intervalCounter + 1 →
      step s = exec .tick s)

/-! ### The window (chapter 9) -/

/-- R161, R183: while PRST or RST is asserted reads return 0 and writes are ignored; and a write to a location with no write
function is ignored at every time. -/
def Obligations.ClosedWindowTakesNoAccess : Prop :=
  (∀ (p : Port) (s : State), (s.port p).prst = true ∨ s.rst = true →
    (∀ v : Byte,
      exec (.cmdWrite p v) s = .next s ∧ exec (.prmWrite p v) s = .next s ∧ exec (.intpWrite p v) s = .next s ∧
        exec (.inteWrite p v) s = .next s ∧ exec (.accept p v) s = .next s) ∧
    exec (.prmRead p) s = .next (s.updUnit p fun u => { u with dataOut := 0 }) ∧
    ∀ l : BitVec 5, s.readLocation p l = 0) ∧
  ∀ (p : Port) (l : BitVec 5) (v : Byte) (s : State), exec (.writeIgnored p l v) s = .next s

/-- R163, R164, R166, R167: a byte written to PRM is staged, or lost with the overrun flag set when 8 are staged; a CMD write
in READY submits the code with the staged bytes, and in BUSY it is lost and sets the overrun flag; a read of PRM drives the
head of the result list and removes it, and with no byte left it drives 0. -/
def Obligations.StagingSubmissionAndResultList : Prop :=
  ∀ (p : Port) (s : State) (v : Byte), (s.port p).prst = false → s.rst = false →
    ((s.port p).unit.staging.length < 8 →
      exec (.prmWrite p v) s = .next (s.updUnit p fun u => { u with staging := u.staging ++ [v] })) ∧
    (8 ≤ (s.port p).unit.staging.length →
      exec (.prmWrite p v) s = .next (s.updUnit p fun u => { u with overrun := true })) ∧
    ((s.port p).unit.command = none →
      exec (.cmdWrite p v) s =
        .next (s.updUnit p fun u =>
          { u with
            command := some ⟨v, u.staging⟩, staging := [], results := [], res := 0, overrun := false,
            intp := u.intp &&& 0b1101 })) ∧
    ((s.port p).unit.command ≠ none →
      exec (.cmdWrite p v) s = .next (s.updUnit p fun u => { u with overrun := true })) ∧
    (∀ b rest, (s.port p).unit.results = b :: rest →
      exec (.prmRead p) s = .next (s.updUnit p fun u => { u with dataOut := b, results := rest })) ∧
    ((s.port p).unit.results = [] → exec (.prmRead p) s = .next (s.updUnit p fun u => { u with dataOut := 0 }))

/-- R171, R172: a write of INTP clears the causes whose bit is 1 and leaves the others; a write of INTE replaces the enable
set; the interrupt output is driven exactly while some cause is both pending and enabled. -/
def Obligations.InterruptSets : Prop :=
  ∀ (p : Port) (s : State) (v : Byte),
    ((s.port p).prst = false → s.rst = false →
      exec (.intpWrite p v) s = .next (s.updUnit p fun u => { u with intp := u.intp &&& ~~~(v.setWidth 4) }) ∧
      exec (.inteWrite p v) s = .next (s.updUnit p fun u => { u with inte := v.setWidth 4 })) ∧
    ((s.port p).interruptDriven = true ↔
      ∃ i, i < 4 ∧ (s.port p).unit.intp.getLsbD i = true ∧ (s.port p).unit.inte.getLsbD i = true)

/-- R162. -/
def Obligations.StatShowsTheFiveConditions : Prop :=
  ∀ (p : Port) (s : State), (s.port p).prst = false → s.rst = false →
    let stat := s.readLocation p 0x00
    (stat.getLsbD 0 = true ↔ (s.port p).unit.command ≠ none) ∧
    (stat.getLsbD 1 = true ↔ (s.port p).unit.overrun = true) ∧
    (stat.getLsbD 2 = true ↔ (s.port p).lifecycle = .enabled) ∧
    (stat.getLsbD 3 = true ↔ (s.port p).occ.offer ≠ none) ∧
    (stat.getLsbD 4 = true ↔ (s.port (otherPort p)).lifecycle = .enabled) ∧
    ∀ i, 5 ≤ i → stat.getLsbD i = false

/-- R161, R173: what every location but STAT reads: RES, PRM, PCNT, RCNT, INTP, INTE, OSEQ, ASTAT, the offer locations with
an offer posted and without, and the locations not listed. -/
def Obligations.OfferWindowShowsTheOffer : Prop :=
  ∀ (p : Port) (s : State), (s.port p).prst = false → s.rst = false →
    let r := s.readLocation p
    r 0x01 = (s.port p).unit.res ∧
    ((s.port p).unit.results = [] → r 0x02 = 0) ∧ (∀ b rest, (s.port p).unit.results = b :: rest → r 0x02 = b) ∧
    r 0x03 = BitVec.ofNat 8 (s.port p).unit.staging.length ∧ r 0x04 = BitVec.ofNat 8 (s.port p).unit.results.length ∧
    r 0x05 = (s.port p).unit.intp.setWidth 8 ∧ r 0x06 = (s.port p).unit.inte.setWidth 8 ∧
    (∀ l : BitVec 5, l = 0x07 ∨ 0x19 ≤ l.toNat → r l = 0) ∧
    r 0x08 = (s.port p).occ.sequence ∧ r 0x18 = (s.port p).occ.acceptStatus.code ∧
    ((s.port p).occ.offer = none → ∀ l : BitVec 5, 0x09 ≤ l.toNat → l.toNat ≤ 0x17 → r l = 0) ∧
    ∀ o, (s.port p).occ.offer = some o →
      r 0x09 = (match o.kind with | .switchTask => 1 | .continueTask => 2) ∧
      (r 0x0B ++ r 0x0A : Half) = o.incoming.elim 0 s.handle ∧
      (r 0x0E ++ r 0x0D ++ r 0x0C : Context) = o.incomingContext.getD 0 ∧
      (r 0x11 ++ r 0x10 ++ r 0x0F : Context) = o.outgoingContext.getD 0 ∧
      (o.delivery = none → r 0x12 = 0) ∧ (∀ y, o.delivery = some (.ok y) → r 0x12 = 1) ∧
      (o.delivery = some .timeout → r 0x12 = 2) ∧ (o.delivery = some .closed → r 0x12 = 3) ∧
      (o.delivery = some .lost → r 0x12 = 4) ∧
      (∀ m : Message, o.delivery = some (.ok (.message m)) →
        r 0x13 = m.tag ∧ (r 0x15 ++ r 0x14 : Half) = m.value ∧ (r 0x17 ++ r 0x16 : Half) = m.sender) ∧
      (∀ k : Byte, o.delivery = some (.ok (.page k)) → r 0x13 = k ∧ r 0x14 = 0 ∧ r 0x15 = 0 ∧ r 0x16 = 0 ∧ r 0x17 = 0) ∧
      ((∀ m, o.delivery ≠ some (.ok (.message m))) → (∀ k, o.delivery ≠ some (.ok (.page k))) →
        r 0x13 = 0 ∧ r 0x14 = 0 ∧ r 0x15 = 0 ∧ r 0x16 = 0 ∧ r 0x17 = 0)

/-! ### The command codes and the check order (R168, R169) -/

/-- R168: the codes with their parameter counts; a submitted code is taken by the row of its command, and a code that is
none of them by BAD_COMMAND. -/
def Obligations.CommandCodeTable : Prop :=
  CommandCode.all.map (fun c => (c.code, c.paramCount)) =
      [(0x10, 6), (0x11, 2), (0x12, 2), (0x13, 0), (0x14, 2), (0x15, 2), (0x16, 3), (0x17, 3), (0x18, 5), (0x19, 2),
        (0x1A, 0), (0x1B, 0), (0x1C, 2), (0x20, 4), (0x21, 1), (0x22, 1), (0x23, 7), (0x24, 6), (0x25, 4), (0x26, 1),
        (0x30, 3), (0x31, 4), (0x32, 1), (0x40, 4), (0x41, 1), (0x42, 3), (0x43, 1), (0x44, 1), (0x45, 1), (0x50, 2),
        (0x51, 0), (0x60, 0), (0x61, 0), (0x62, 0), (0x63, 0)] ∧
    (∀ (c : CommandCode) (p : Port), c ∈ CommandCode.all ∧ takingRow p c.code = c.row p) ∧
    ∀ (code : Byte) (p : Port), (∀ c : CommandCode, c.code ≠ code) → takingRow p code = .badCommand p

/-- R169, steps 1 and 2: an unknown code is refused BAD_COMMAND; a known one with the wrong number of bytes
PARAM_COUNT. -/
def Obligations.UnknownCodeAndWrongCountAreRefused : Prop :=
  (∀ (p : Port) (s : State) (code : Byte) (params : List Byte),
    (s.port p).unit.command = some ⟨code, params⟩ → (∀ c : CommandCode, c.code ≠ code) →
      exec (.badCommand p) s = .next (s.completed p 0x10 [])) ∧
  ∀ (p : Port) (s : State) (c : CommandCode) (params : List Byte),
    s.Submitted p c params → params.length ≠ c.paramCount → exec (c.row p) s = .next (s.completed p 0x11 [])

/-- R169, step 3, with R84 for the wait option: a caller-required command is refused NO_CALLER, CALLER_GONE or DEPARTING; a
wait option above 2, or TIMED with timeout 0, is refused BAD_PARAM. -/
def Obligations.CallerAndWaitOptionChecks : Prop :=
  (∀ (p : Port) (s : State) (c : CommandCode) (params : List Byte),
    s.Submitted p c params → params.length = c.paramCount → callerRequired c params = true →
      ((s.port p).occ.occupant = none → exec (c.row p) s = .next (s.completed p 0x17 [])) ∧
      ∀ x, (s.port p).occ.occupant = some x →
        ((s.task x).doomed = true → exec (c.row p) s = .next (s.completed p 0x19 [])) ∧
        ((s.task x).doomed = false →
          (s.port p).occ.disposition = some .wait ∨ (s.port p).occ.disposition = some .held →
          exec (c.row p) s = .next (s.completed p 0x18 []))) ∧
  ∀ (p : Port) (s : State) (id a b d e option lo hi : Byte), s.MayAsk p option → ¬OptionInRange option (hi ++ lo) →
    (s.Submitted p .msgSend [id, a, b, d, option, lo, hi] → exec (.msgSend p) s = .next (s.completed p 0x12 [])) ∧
    (s.Submitted p .msgRecv [id, a, b, option, lo, hi] → exec (.msgRecv p) s = .next (s.completed p 0x12 [])) ∧
    (s.Submitted p .cntAcquire [id, option, lo, hi] → exec (.cntAcquire p) s = .next (s.completed p 0x12 [])) ∧
    (s.Submitted p .evtWait [e, option, lo, hi] → exec (.evtWait p) s = .next (s.completed p 0x12 []))

/-- R4, R10, R72 with R169, steps 4 and 5: a malformed handle or exchange id is refused BAD_PARAM, a stale one STALE_HANDLE
or STALE_EXCHANGE, by every command that takes one (PAGE.GIVE, which takes a page besides, has its own statement). The
current handle of a doomed task is stale. -/
def Obligations.HandleAndExchangeIdChecks : Prop :=
  (∀ (p : Port) (s : State) (c : CommandCode) (lo hi : Byte) (rest : List Byte),
    c ∈ [CommandCode.taskStart, .taskDelete, .taskHold, .taskRelease, .taskSetpri, .taskSetaff, .taskSetctx, .taskQuery] →
    s.Submitted p c (lo :: hi :: rest) → rest.length + 2 = c.paramCount →
    (c = .taskSetpri → ∀ b ∈ rest, b.toNat < 32) → (c = .taskSetaff → ∀ b ∈ rest, b = 1 ∨ b = 2 ∨ b = 3) →
    let v := (hi ++ lo).toNat
    (v % 64 = 0 ∨ 48 < v % 64 ∨ 0x3FF < v → exec (c.row p) s = .next (s.completed p 0x12 [])) ∧
    ∀ t : Slot, v % 64 = t.val + 1 → v ≤ 0x3FF →
      v / 64 ≠ (s.task t).generation.toNat ∨ (s.task t).state = .free ∨ (s.task t).doomed = true →
      exec (c.row p) s = .next (s.completed p 0x13 [])) ∧
  ∀ (p : Port) (s : State) (c : CommandCode) (id : Byte) (rest : List Byte),
    s.Submitted p c (id :: rest) →
    ((c = .xchClose ∨ c = .xchQuery ∨ c = .cntRelease) ∧ rest = []) ∨
      (∃ option lo hi, s.MayAsk p option ∧ OptionInRange option (hi ++ lo) ∧
        ((c = .cntAcquire ∧ rest = [option, lo, hi]) ∨
          (∃ tag v₀ v₁, c = .msgSend ∧ rest = [tag, v₀, v₁, option, lo, hi]) ∨
          ∃ low high, c = .msgRecv ∧ rest = [low, high, option, lo, hi] ∧ low.toNat ≤ high.toNat)) →
    (id.toNat % 32 = 0 ∨ 16 < id.toNat % 32 → exec (c.row p) s = .next (s.completed p 0x12 [])) ∧
    ∀ x : Fin 16, id.toNat % 32 = x.val + 1 →
      id.toNat / 32 ≠ (s.exchange x).generation.toNat ∨ (s.exchange x).state = .closed →
      exec (c.row p) s = .next (s.completed p 0x14 [])

/-! ### The Dispatcher (chapters 2 and 3) -/

/-- R46, R47, R59, R60: a posting and a revision take the next sequence, write every field of the offer from the records as
they stand, and raise OFFER; a task that becomes the incoming of a SWITCH offer leaves its queue for SELECTED. -/
def Obligations.OfferIsWrittenFromTheRecords : Prop :=
  (∀ (p : Port) (k : OfferKind) (y : Option Slot) (s : State),
    writeOffer p k y s =
      s.updPort p fun r =>
        { r with
          occ :=
            { r.occ with
              sequence := r.occ.sequence + 1
              offer :=
                some
                  { sequence := r.occ.sequence + 1
                    kind := k
                    incoming := y
                    incomingContext := y.map fun t => (s.task t).context
                    outgoingContext := r.occ.occupant.map fun t => (s.task t).context
                    delivery := y.bind fun t => (s.task t).delivery } }
          unit := { r.unit with intp := if r.prst then r.unit.intp else r.unit.intp ||| 0b0001 } }) ∧
  ∀ (p : Port) (t : Slot) (s : State),
    offerTask p t s =
      writeOffer p .switchTask (some t)
        ((s.updQueue (s.task t).priority (·.erase t)).updTask t fun r => { r with state := .selected })

/-- R32: selection gives the first eligible task, level by level from 0 and each level from its head, or IDLE. -/
def Obligations.SelectionIsTheBestEligibleReadyTask : Prop :=
  ∀ (p : Port) (s : State),
    (s.selection p = none ↔ ∀ level, ∀ t ∈ s.queue level, ¬s.EligibleFor p t) ∧
    ∀ t, s.selection p = some t ↔
      ∃ level, s.FirstEligible p level t ∧ ∀ better < level, ∀ u ∈ s.queue better, ¬s.EligibleFor p u

/-- R34: the choice among the candidate ports. -/
def Obligations.ChoiceAmongTheCandidatePorts : Prop :=
  ∀ (s : State) (t : Slot),
    (s.choosePort t = none ↔ ∀ p, ¬s.Candidate t p) ∧
    (∀ p, s.Candidate t p → ¬s.Candidate t (otherPort p) → s.choosePort t = some p) ∧
    (s.Candidate t .A → s.Candidate t .B →
      (∀ p, s.next p = none → s.next (otherPort p) ≠ none → s.choosePort t = some p) ∧
      (s.next .A = none → s.next .B = none → s.choosePort t = some .A) ∧
      ∀ y z, s.next .A = some y → s.next .B = some z →
        ((s.task z).priority < (s.task y).priority → s.choosePort t = some .A) ∧
        ((s.task y).priority < (s.task z).priority → s.choosePort t = some .B) ∧
        ((s.task y).priority = (s.task z).priority → s.choosePort t = some .A))

/-- R33, R35, R36, with R30 for the entry of a queue: placement without a candidate changes nothing; on the chosen port the
task is offered, by the port's situation; a displaced incoming enters the head of its level and is placed in turn. -/
def Obligations.PlacementOffersAndCascades : Prop :=
  (∀ (t : Slot) (s : State),
    readyTail t s =
        place t ((s.updQueue (s.task t).priority (· ++ [t])).updTask t fun r => { r with state := .ready }) ∧
      readyHead t s =
        place t ((s.updQueue (s.task t).priority (t :: ·)).updTask t fun r => { r with state := .ready })) ∧
  ∀ (t : Slot) (s : State),
    (s.choosePort t = none → place t s = s) ∧
    ∀ p, s.choosePort t = some p →
      let occ := (s.port p).occ
      (occ.offer = none → occ.occupant = none → place t s = offerTask p t s) ∧
      (occ.offer = none → occ.occupant ≠ none → place t s = offerTask p t (s.setDisposition p .readyHead)) ∧
      ∀ o, occ.offer = some o →
        (o.kind = .switchTask → o.incoming = none → place t s = offerTask p t s) ∧
        (∀ y, o.kind = .switchTask → o.incoming = some y → place t s = readyHead y (offerTask p t s)) ∧
        (o.kind = .continueTask → occ.occupant = none → place t s = offerTask p t s) ∧
        (o.kind = .continueTask → occ.occupant ≠ none → place t s = offerTask p t (s.setDisposition p .readyHead))

/-- R53, R54, R55: re-decision of a DISABLED port changes nothing; on a SETTLED port the occupant stays unless the selection
is more urgent or its trigger told it to leave. -/
def Obligations.ReDecisionOfASettledPort : Prop :=
  ∀ (p : Port) (gone : Bool) (s : State),
    ((s.port p).lifecycle = .disabled → redecide p gone s = s) ∧
    ((s.port p).lifecycle = .enabled → (s.port p).occ.offer = none →
      ((s.port p).occ.occupant = none →
        (s.selection p = none → redecide p gone s = s) ∧
        ∀ t, s.selection p = some t → redecide p gone s = offerTask p t s) ∧
      ∀ x, (s.port p).occ.occupant = some x →
        ((s.port p).occ.disposition = none →
          (s.selection p = none → redecide p gone s = s) ∧
          ∀ t, s.selection p = some t →
            ((s.task x).priority ≤ (s.task t).priority → redecide p gone s = s) ∧
            ((s.task t).priority < (s.task x).priority →
              redecide p gone s = offerTask p t (s.setDisposition p .readyTail))) ∧
        ∀ d, (s.port p).occ.disposition = some d → d = .wait ∨ d = .held ∨ d = .free →
          (s.selection p = none → redecide p gone s = writeOffer p .switchTask none s) ∧
          ∀ t, s.selection p = some t → redecide p gone s = offerTask p t s)

/-- R54, R56, R57, R58: re-decision of an OFFERED port. `stays` says that the occupant is a candidate: it is IDLE, or its
disposition is READY_HEAD, READY_TAIL or STAY. Ties go to the occupant, then to the incoming. A task that a revision takes
out of the offer enters the head of its level and is placed. -/
def Obligations.ReDecisionOfAnOfferedPort : Prop :=
  ∀ (p : Port) (s : State) (o : Offer), (s.port p).lifecycle = .enabled → (s.port p).occ.offer = some o →
    let x := (s.port p).occ.occupant
    let d := (s.port p).occ.disposition
    let stays := x = none ∨ d = some .readyHead ∨ d = some .readyTail ∨ d = some .stay
    let best := s.urgency (s.selection p)
    let continued :=
      match x with
      | some t => writeOffer p .continueTask (some t) (s.setDisposition p .stay)
      | none => writeOffer p .continueTask none s
    let switched := match s.selection p with | some t => offerTask p t s | none => writeOffer p .switchTask none s
    let displacing := fun u : State => match o.incoming with | some y => readyHead y u | none => u
    (x ≠ none → d ≠ none) →
    (o.kind = .switchTask →
      ((stays → s.urgency o.incoming < s.urgency x) → s.urgency o.incoming ≤ best → redecide p false s = s) ∧
      (stays → s.urgency x ≤ s.urgency o.incoming → s.urgency x ≤ best → redecide p false s = displacing continued) ∧
      ((stays → best < s.urgency x) → best < s.urgency o.incoming → redecide p false s = displacing switched) ∧
      (stays → s.urgency x ≤ best → redecide p true s = continued) ∧
      ((stays → best < s.urgency x) → redecide p true s = switched)) ∧
    (o.kind = .continueTask →
      (stays → s.urgency x ≤ best → redecide p false s = s) ∧
      (∀ t, s.selection p = some t → x = none → redecide p false s = offerTask p t s) ∧
      (∀ t, s.selection p = some t → x ≠ none → d = some .stay → best < s.urgency x →
        redecide p false s = offerTask p t (s.setDisposition p .readyTail)) ∧
      (¬stays → redecide p false s = switched))

/-- R9, with R82, R99, R115, R135, R149 for the lists: at the end of a wait the task leaves its list and the timer list, the
wait record gives way to the delivery, and the task becomes READY or HELD, or its disposition changes and its port is
re-decided. -/
def Obligations.EndOfAWait : Prop :=
  ∀ (t : Slot) (d : Delivery) (s : State) (w : WaitRecord), (s.task t).wait = some w →
    let untimed := fun u : State => { u with time := { u.time with timers := u.time.timers.filter (·.task != t) } }
    let left := (leaveWait t s).updTask t fun r => { r with wait := none, delivery := some d }
    (w.kind = .delay → leaveWait t s = untimed s) ∧
    (∀ l, w.kind = .event l → leaveWait t s = untimed (s.updLine l fun r => { r with waiters := r.waiters.erase t })) ∧
    (∀ n, w.kind = .pages n →
      leaveWait t s = untimed { s with pool := { s.pool with waitQueue := s.pool.waitQueue.erase t } }) ∧
    (∀ (x : Fin 16) (id : Byte), id.toNat % 32 = x.val + 1 →
      (∀ low high order b, w.kind = .recv id low high → (s.exchange x).state = .message order b →
        leaveWait t s = untimed (s.setExchange x (.message order { b with receivers := b.receivers.erase t }))) ∧
      (∀ m order b, w.kind = .send id m → (s.exchange x).state = .message order b →
        leaveWait t s = untimed (s.setExchange x (.message order { b with senders := b.senders.erase t }))) ∧
      ∀ order c, w.kind = .acquire id → (s.exchange x).state = .count order c →
        leaveWait t s = untimed (s.setExchange x (.count order { c with acquirers := c.acquirers.erase t }))) ∧
    ((s.task t).state = .waiting → (s.task t).holdFlag = false → endWait t d s = readyTail t left) ∧
    ((s.task t).state = .waiting → (s.task t).holdFlag = true →
      endWait t d s =
        left.updTask t fun r => { r with state := .held, holdFlag := false, holdCause := some .command }) ∧
    ∀ p, (s.task t).state = .running → s.Occupies t p → (s.port p).occ.disposition = some .wait →
      ((s.task t).holdFlag = false → endWait t d s = redecide p false (left.setDisposition p .readyTail)) ∧
      ((s.task t).holdFlag = true →
        endWait t d s =
          redecide p false
            ((left.updTask t fun r => { r with holdFlag := false, holdCause := some .command }).setDisposition p .held))

/-- R82, R83, R99, R106, R116: an entry of the timer list stands behind every entry of at most its remaining count; a waiter stands at
the tail in ARRIVAL order, and in URGENCY order behind every waiter at least as urgent as itself; a waiter whose priority has changed joins an URGENCY list again, and every
other waiter stays where it is. -/
def Obligations.OrderOfTimersAndWaiters : Prop :=
  (∀ (counter : TickCount) (e : TimerEntry) (l : List TimerEntry),
    ∃ before after, l = before ++ after ∧ insertEntry counter e l = before ++ e :: after ∧
      (∀ f ∈ before, (f.deadline - counter).toNat ≤ (e.deadline - counter).toNat) ∧
      (l.Pairwise (fun f g => (f.deadline - counter).toNat ≤ (g.deadline - counter).toNat) →
        ∀ f ∈ after, (e.deadline - counter).toNat < (f.deadline - counter).toNat)) ∧
  (∀ (s : State) (t : Slot) (l : List Slot),
    insertWaiter s .arrival t l = l ++ [t] ∧
    ∃ before after, l = before ++ after ∧ insertWaiter s .urgency t l = before ++ t :: after ∧
      (∀ u ∈ before, (s.task u).priority ≤ (s.task t).priority) ∧
      (l.Pairwise (fun u v => (s.task u).priority ≤ (s.task v).priority) →
        ∀ u ∈ after, (s.task t).priority < (s.task u).priority)) ∧
  ∀ (t : Slot) (s : State) (w : WaitRecord), (s.task t).wait = some w →
    (w.kind = .delay ∨ (∃ l, w.kind = .event l) ∨ (∃ n, w.kind = .pages n) → repositionWaiter t s = s) ∧
    ∀ (x : Fin 16) (id : Byte), id.toNat % 32 = x.val + 1 →
      (∀ low high b, w.kind = .recv id low high →
        ((s.exchange x).state = .message .arrival b → repositionWaiter t s = s) ∧
        ((s.exchange x).state = .message .urgency b → t ∈ b.receivers →
          repositionWaiter t s =
            s.setExchange x
              (.message .urgency { b with receivers := insertWaiter s .urgency t (b.receivers.erase t) }))) ∧
      (∀ m b, w.kind = .send id m →
        ((s.exchange x).state = .message .arrival b → repositionWaiter t s = s) ∧
        ((s.exchange x).state = .message .urgency b → t ∈ b.senders →
          repositionWaiter t s =
            s.setExchange x (.message .urgency { b with senders := insertWaiter s .urgency t (b.senders.erase t) }))) ∧
      ∀ c, w.kind = .acquire id →
        ((s.exchange x).state = .count .arrival c → repositionWaiter t s = s) ∧
        ((s.exchange x).state = .count .urgency c → t ∈ c.acquirers →
          repositionWaiter t s =
            s.setExchange x (.count .urgency { c with acquirers := insertWaiter s .urgency t (c.acquirers.erase t) }))

/-! ### The task commands (chapter 1, R40, R122) -/

/-- R12, R13: TASK.CREATE out of range, with no FREE slot, and with the lowest FREE slot; TASK.START of a DORMANT task and of
any other, and of a doomed task by its current handle (R10). -/
def Obligations.TaskCreateAndStart : Prop :=
  (∀ (p : Port) (s : State) (pri aff c₀ c₁ c₂ q : Byte), s.Submitted p .taskCreate [pri, aff, c₀, c₁, c₂, q] →
    (32 ≤ pri.toNat ∨ (aff ≠ 1 ∧ aff ≠ 2 ∧ aff ≠ 3) → exec (.taskCreate p) s = .next (s.completed p 0x12 [])) ∧
    ∀ (priority : Fin 32) (a : Affinity), priority.val = pri.toNat → a.code = aff →
      ((∀ t, (s.task t).state ≠ .free) → exec (.taskCreate p) s = .next (s.completed p 0x20 [])) ∧
      ∀ t, (s.task t).state = .free → (∀ u < t, (s.task u).state ≠ .free) →
        exec (.taskCreate p) s =
          .next ((s.updTask t fun r =>
            { generation := r.generation, state := .dormant, priority := priority, affinity := a,
              context := c₂ ++ c₁ ++ c₀, quantum := q, remaining := q, holdFlag := false, holdCause := none,
              wait := none, delivery := none, doomed := false }).completed p 0x00 (halfBytes (s.handle t)))) ∧
  ∀ (p : Port) (s : State) (t : Slot), s.Submitted p .taskStart (halfBytes (s.handle t)) →
    ((s.task t).doomed = false → (s.task t).state = .dormant →
      exec (.taskStart p) s = .next ((readyTail t s).completed p 0x00 [])) ∧
    ((s.task t).doomed = false → (s.task t).state ≠ .dormant → (s.task t).state ≠ .free →
      exec (.taskStart p) s = .next (s.completed p 0x15 [])) ∧
    ((s.task t).doomed = true → exec (.taskStart p) s = .next (s.completed p 0x13 []))

/-- R3, R11, R14: TASK.DELETE of a task that is not RUNNING (and so not doomed): the generation increments, the task leaves
the place where it is kept, and the slot is retired. That the port of a SELECTED task is re-decided before the slot's runs
are released and served is the model's reading (log entry 12). -/
def Obligations.TaskDeleteRetiresATaskThatIsNotRunning : Prop :=
  ∀ (p : Port) (s : State) (t : Slot), s.Submitted p .taskDelete (halfBytes (s.handle t)) → (s.task t).doomed = false →
    let stale := s.updTask t fun r => { r with generation := r.generation + 1 }
    ((s.task t).state = .dormant ∨ (s.task t).state = .held →
      exec (.taskDelete p) s = .next ((retire t false stale).completed p 0x00 [])) ∧
    ((s.task t).state = .ready →
      exec (.taskDelete p) s =
        .next ((retire t false (stale.updQueue (s.task t).priority (·.erase t))).completed p 0x00 [])) ∧
    (∀ q, (s.task t).state = .selected → s.IncomingOn t q →
      exec (.taskDelete p) s = .next ((retire t false (redecide q true stale)).completed p 0x00 [])) ∧
    ((s.task t).state = .waiting →
      exec (.taskDelete p) s =
        .next ((retire t (s.pool.waitQueue.head? == some t)
          ((leaveWait t stale).updTask t fun r =>
            { r with wait := none, holdFlag := false, holdCause := none })).completed p 0x00 []))

/-- R10, R15, R16, R24: TASK.DELETE of a RUNNING task and TASK.EXIT of the caller doom it: the generation increments, a wait it
carries is cancelled (and the page-wait queue served if it was its head), its disposition becomes FREE and its port is
re-decided. The delete revises a posted SWITCH offer also where its incoming still wins (R24's fifth row, to which section 3.6
gives the pairs of an accept with TASK.DELETE; log entry 18); the exit, of which R24 says nothing, re-decides as R53 to R57 give. A task that is doomed already is not named by its handle
(R10). That serving precedes the re-decision is the model's reading (log entry 12). -/
def Obligations.DeleteOrExitDoomsARunningTask : Prop :=
  ∀ (p q : Port) (s : State) (t : Slot),
    let dooming := fun u : State =>
      (u.updTask t fun r =>
        { r with generation := r.generation + 1, doomed := true, holdFlag := false, holdCause := none }).setDisposition q
        .free
    let cancelled := dooming ((leaveWait t s).updTask t fun r => { r with wait := none })
    let redecided := fun u : State =>
      match (u.port q).lifecycle, (u.port q).occ.offer with
      | .enabled, some o =>
        if o.kind = OfferKind.switchTask ∧ u.urgency o.incoming ≤ u.urgency (u.selection q) then
          writeOffer q .switchTask o.incoming u
        else redecide q false u
      | _, _ => redecide q false u
    let deleted :=
      if (s.port q).occ.disposition = some .wait then
        redecided (if s.pool.waitQueue.head? = some t then serve cancelled else cancelled)
      else redecided (dooming s)
    (s.Submitted p .taskDelete (halfBytes (s.handle t)) → (s.task t).doomed = true →
      exec (.taskDelete p) s = .next (s.completed p 0x13 [])) ∧
    ((s.task t).state = .running → (s.task t).doomed = false → s.Occupies t q →
      s.Submitted p .taskDelete (halfBytes (s.handle t)) →
      exec (.taskDelete p) s = .next (deleted.completed p 0x00 [])) ∧
    (s.IsCaller q t → s.Submitted q .taskExit [] →
      exec (.taskExit q) s = .next ((redecide q false (dooming s)).completed q 0x00 []))

/-- R11, R156: a slot that becomes FREE keeps its generation, and every run its task owns is removed, its entry and its pages
free; the page-wait queue
is served once if runs were removed or the task has left its head. -/
def Obligations.FreedSlotReleasesItsRuns : Prop :=
  ∀ (t : Slot) (wasHead : Bool) (s : State),
    let u := freeSlot t s
    u.task t = blankTask (s.task t).generation ∧ (∀ v, v ≠ t → u.task v = s.task v) ∧
    (∀ e : Fin 64,
      (∀ r, s.pool.runs[e] = some r → r.owner = t → u.pool.runs[e] = none) ∧
      ((∀ r, s.pool.runs[e] = some r → r.owner ≠ t) → u.pool.runs[e] = s.pool.runs[e])) ∧
    (∀ k : Fin 128,
      let owned := ∃ (e : Fin 64) (r : Run), s.pool.runs[e] = some r ∧ r.owner = t ∧ r.first ≤ k.val ∧
        k.val < r.first + r.length
      (owned → u.pool.pageMap[k] = none) ∧ (¬owned → u.pool.pageMap[k] = s.pool.pageMap[k])) ∧
    u.pool.freePages = s.pool.freePages + ((s.pool.runsOf t).map (·.length)).sum ∧
    u.pool.size = s.pool.size ∧ u.pool.waitQueue = s.pool.waitQueue ∧
    retire t wasHead s = if s.pool.runsOf t ≠ [] ∨ wasHead = true then serve u else u

/-- R17: TASK.HOLD, state by state. A doomed task is not named by its handle (R10). -/
def Obligations.TaskHoldSuspends : Prop :=
  ∀ (p : Port) (s : State) (t : Slot), s.Submitted p .taskHold (halfBytes (s.handle t)) → (s.task t).doomed = false →
    let heldBy := fun u : State =>
      u.updTask t fun r => { r with state := .held, holdFlag := false, holdCause := some .command }
    let flagged := s.updTask t fun r => { r with holdFlag := true, holdCause := some .command }
    let run := fun u : State => exec (.taskHold p) s = .next (u.completed p 0x00 [])
    let refused := exec (.taskHold p) s = .next (s.completed p 0x15 [])
    ((s.task t).state = .dormant ∨ (s.task t).state = .held → refused) ∧
    ((s.task t).state = .ready → run (heldBy (s.updQueue (s.task t).priority (·.erase t)))) ∧
    (∀ q, (s.task t).state = .selected → s.IncomingOn t q → run (redecide q true (heldBy s))) ∧
    ((s.task t).state = .waiting → (s.task t).holdFlag = false → run flagged) ∧
    ((s.task t).state = .waiting → (s.task t).holdFlag = true → refused) ∧
    ∀ q, (s.task t).state = .running → s.Occupies t q →
      let d := (s.port q).occ.disposition
      (d = none ∨ d = some .readyHead ∨ d = some .readyTail ∨ d = some .stay →
        run (redecide q false ((s.updTask t fun r => { r with holdCause := some .command }).setDisposition q .held))) ∧
      (d = some .wait → (s.task t).holdFlag = false → run flagged) ∧
      (d = some .wait → (s.task t).holdFlag = true → refused) ∧
      (d = some .held → refused)

/-- R18: TASK.RELEASE, state by state, and of a doomed task by its current handle (R10). -/
def Obligations.TaskReleaseResumes : Prop :=
  ∀ (p : Port) (s : State) (t : Slot), s.Submitted p .taskRelease (halfBytes (s.handle t)) →
    ((s.task t).doomed = true → exec (.taskRelease p) s = .next (s.completed p 0x13 [])) ∧
    ((s.task t).doomed = false →
      let unheld := s.updTask t fun r => { r with holdCause := none }
      let unflagged := s.updTask t fun r => { r with holdFlag := false, holdCause := none }
      let run := fun u : State => exec (.taskRelease p) s = .next (u.completed p 0x00 [])
      let refused := exec (.taskRelease p) s = .next (s.completed p 0x15 [])
      ((s.task t).state = .dormant ∨ (s.task t).state = .ready ∨ (s.task t).state = .selected → refused) ∧
      ((s.task t).state = .held → run (readyTail t unheld)) ∧
      ((s.task t).state = .waiting → (s.task t).holdFlag = true → run unflagged) ∧
      ((s.task t).state = .waiting → (s.task t).holdFlag = false → refused) ∧
      ∀ q, (s.task t).state = .running → s.Occupies t q →
        let d := (s.port q).occ.disposition
        (d = some .held → run (redecide q false (unheld.setDisposition q .readyTail))) ∧
        (d = some .wait → (s.task t).holdFlag = true → run unflagged) ∧
        (d = some .wait → (s.task t).holdFlag = false → refused) ∧
        (d ≠ some .held → d ≠ some .wait → refused))

/-- R19, with R83, R106, R135, R149 for a waiter: TASK.SETPRI, state by state. A doomed task is not named by its handle
(R10). -/
def Obligations.TaskSetpriMovesTheTask : Prop :=
  ∀ (p : Port) (s : State) (t : Slot) (pri : Byte),
    (∀ lo hi, s.Submitted p .taskSetpri [lo, hi, pri] → 32 ≤ pri.toNat →
      exec (.taskSetpri p) s = .next (s.completed p 0x12 [])) ∧
    (s.Submitted p .taskSetpri (halfBytes (s.handle t) ++ [pri]) → ∀ new : Fin 32, new.val = pri.toNat →
      ((s.task t).doomed = true → exec (.taskSetpri p) s = .next (s.completed p 0x13 [])) ∧
      ((s.task t).doomed = false →
        let old := (s.task t).priority
        let written := s.updTask t fun r => { r with priority := new }
        let run := fun u : State => exec (.taskSetpri p) s = .next (u.completed p 0x00 [])
        ((s.task t).state ≠ .free → new = old → run s) ∧
        (new ≠ old →
          ((s.task t).state = .dormant ∨ (s.task t).state = .held → run written) ∧
          ((s.task t).state = .ready →
            run (readyTail t ((s.updQueue old (·.erase t)).updTask t fun r => { r with priority := new }))) ∧
          (∀ q, (s.task t).state = .selected → s.IncomingOn t q →
            (old < new → run (redecide q false written)) ∧ (new < old → run written)) ∧
          ((s.task t).state = .waiting → run (repositionWaiter t written)) ∧
          ∀ q, (s.task t).state = .running → s.Occupies t q →
            let d := (s.port q).occ.disposition
            (d = none → (old < new → run (redecide q false written)) ∧ (new < old → run written)) ∧
            (d = some .readyHead ∨ d = some .readyTail → run (redecide q false (written.setDisposition q .readyTail))) ∧
            (d = some .stay → run (redecide q false written)) ∧
            (d = some .wait → run (repositionWaiter t written)) ∧
            (d = some .held → run written))))

/-- R20 to R23: TASK.SETAFF and TASK.SETCTX write the record in the states that allow it; TASK.QUERY returns its eight bytes
and TASK.SELF the caller's handle, and neither of the two changes a record of another block. A doomed task, by its current
handle, is refused STALE_HANDLE (R10, R157). -/
def Obligations.TaskSetaffSetctxQueryAndSelf : Prop :=
  (∀ (p : Port) (s : State) (t : Slot),
    (∀ lo hi aff, s.Submitted p .taskSetaff [lo, hi, aff] → aff ≠ 1 → aff ≠ 2 → aff ≠ 3 →
      exec (.taskSetaff p) s = .next (s.completed p 0x12 [])) ∧
    (∀ a : Affinity, s.Submitted p .taskSetaff (halfBytes (s.handle t) ++ [a.code]) →
      let written := s.updTask t fun r => { r with affinity := a }
      ((s.task t).doomed = true → exec (.taskSetaff p) s = .next (s.completed p 0x13 [])) ∧
      ((s.task t).doomed = false →
        ((s.task t).state = .running ∨ (s.task t).state = .selected →
          exec (.taskSetaff p) s = .next (s.completed p 0x15 [])) ∧
        ((s.task t).state = .dormant ∨ (s.task t).state = .waiting ∨ (s.task t).state = .held →
          exec (.taskSetaff p) s = .next (written.completed p 0x00 [])) ∧
        ((s.task t).state = .ready → (s.task t).affinity = a →
          exec (.taskSetaff p) s = .next (written.completed p 0x00 [])) ∧
        ((s.task t).state = .ready → (s.task t).affinity ≠ a →
          exec (.taskSetaff p) s = .next ((place t written).completed p 0x00 [])))) ∧
    ∀ c₀ c₁ c₂, s.Submitted p .taskSetctx (halfBytes (s.handle t) ++ [c₀, c₁, c₂]) →
      ((s.task t).doomed = true → exec (.taskSetctx p) s = .next (s.completed p 0x13 [])) ∧
      ((s.task t).doomed = false →
        ((s.task t).state = .dormant ∨ (s.task t).state = .held →
          exec (.taskSetctx p) s =
            .next ((s.updTask t fun r => { r with context := c₂ ++ c₁ ++ c₀ }).completed p 0x00 [])) ∧
        ((s.task t).state ≠ .dormant → (s.task t).state ≠ .held → (s.task t).state ≠ .free →
          exec (.taskSetctx p) s = .next (s.completed p 0x15 [])))) ∧
  ∀ (p : Port) (s : State) (t : Slot),
    (s.Submitted p .taskQuery (halfBytes (s.handle t)) → (s.task t).doomed = true →
      exec (.taskQuery p) s = .next (s.completed p 0x13 [])) ∧
    ((s.task t).state ≠ .free → (s.task t).doomed = false → s.Submitted p .taskQuery (halfBytes (s.handle t)) →
      ∃ place : Byte,
        exec (.taskQuery p) s =
          .next (s.completed p 0x00
            [(s.task t).state.code, BitVec.ofNat 8 (s.task t).priority.val, (s.task t).affinity.code, place,
              (s.task t).wait.elim 0 (fun w => w.kind.code), (s.task t).wait.elim 0 (fun w => w.kind.object),
              BitVec.ofNat 8 (s.pool.runsOf t).length, BitVec.ofNat 8 ((s.pool.runsOf t).map (·.length)).sum]) ∧
        (∀ q, (s.task t).state = .running → s.Occupies t q → place = if q = .A then 1 else 2) ∧
        (∀ q, (s.task t).state = .selected → s.IncomingOn t q → place = if q = .A then 1 else 2) ∧
        ((s.task t).state = .held → (s.task t).holdCause = some .command → place = 1) ∧
        ((s.task t).state = .held → (s.task t).holdCause = some .portLost → place = 2) ∧
        ((s.task t).state = .waiting → place = if (s.task t).holdFlag then 1 else 0) ∧
        ((s.task t).state = .dormant ∨ (s.task t).state = .ready → place = 0)) ∧
    (s.IsCaller p t → s.Submitted p .taskSelf [] →
      exec (.taskSelf p) s = .next (s.completed p 0x00 (halfBytes (s.handle t))))

/-- R40: TASK.YIELD, with and without a READY task F of the caller's level that is eligible for its port. -/
def Obligations.TaskYieldPassesThePort : Prop :=
  ∀ (p : Port) (s : State) (x : Slot), s.IsCaller p x → s.Submitted p .taskYield [] →
    let d := (s.port p).occ.disposition
    ((∀ t ∈ s.queue (s.task x).priority, ¬s.EligibleFor p t) → exec (.taskYield p) s = .next (s.completed p 0x00 [])) ∧
    (d = some .readyTail → exec (.taskYield p) s = .next (s.completed p 0x00 [])) ∧
    ∀ f, s.FirstEligible p (s.task x).priority f →
      (d = none ∨ d = some .stay →
        exec (.taskYield p) s = .next ((offerTask p f (s.setDisposition p .readyTail)).completed p 0x00 [])) ∧
      (d = some .readyHead →
        exec (.taskYield p) s = .next ((redecide p false (s.setDisposition p .readyTail)).completed p 0x00 []))

/-- R122, R51, R52, R116: TASK.DELAY of t ticks begins a DELAY wait with deadline counter + t; a count of 0 is
refused. -/
def Obligations.TaskDelayBeginsAWait : Prop :=
  ∀ (p : Port) (s : State) (x : Slot) (lo hi : Byte), s.IsCaller p x → s.Submitted p .taskDelay [lo, hi] →
    let ticks : Half := hi ++ lo
    (ticks = 0 → exec (.taskDelay p) s = .next (s.completed p 0x12 [])) ∧
    (ticks ≠ 0 →
      exec (.taskDelay p) s = .next (s.waitBegun p x .delay (some (s.time.counter + ticks.setWidth 32))))

/-! ### Accepts (R62 to R65) -/

/-- R62: an accept is refused BUSY_REFUSED or STALE, and then nothing but accept status changes; an accept that passes the
checks is applied, and accept status becomes ACCEPTED. -/
def Obligations.AcceptIsCheckedInOrder : Prop :=
  ∀ (p : Port) (s : State) (v : Byte), (s.port p).prst = false → s.rst = false →
    let status := fun a : AcceptStatus => s.updOcc p fun o => { o with acceptStatus := a }
    ((s.port p).unit.command ≠ none → exec (.accept p v) s = .next (status .busyRefused)) ∧
    ((s.port p).unit.command = none → (s.port p).occ.offer = none → exec (.accept p v) s = .next (status .stale)) ∧
    ∀ o, (s.port p).unit.command = none → (s.port p).occ.offer = some o →
      (v ≠ o.sequence → exec (.accept p v) s = .next (status .stale)) ∧
      (v = o.sequence → ∃ u, exec (.accept p v) s = .next u ∧ (u.port p).occ.acceptStatus = .accepted)

/-- R63, R64: the applied accept of a SWITCH offer. -/
def Obligations.AcceptOfASwitchOffer : Prop :=
  ∀ (p : Port) (s : State) (o : Offer), (s.port p).prst = false → s.rst = false →
    (s.port p).unit.command = none → (s.port p).occ.offer = some o → o.kind = .switchTask →
    let resumed :=
      match o.incoming with
      | some y => s.updTask y fun r => { r with state := .running, remaining := r.quantum, delivery := none }
      | none => s
    let settled :=
      resumed.updPort p fun r =>
        { r with
          occ := { r.occ with occupant := o.incoming, offer := none, disposition := none, acceptStatus := .accepted }
          unit := { r.unit with intp := r.unit.intp &&& 0b1110 } }
    ((s.port p).occ.occupant = none → exec (.accept p o.sequence) s = .next settled) ∧
    ∀ x, (s.port p).occ.occupant = some x →
      let d := (s.port p).occ.disposition
      (d = some .readyHead → exec (.accept p o.sequence) s = .next (readyHead x settled)) ∧
      (d = some .readyTail → exec (.accept p o.sequence) s = .next (readyTail x settled)) ∧
      (d = some .wait →
        exec (.accept p o.sequence) s = .next (settled.updTask x fun r => { r with state := .waiting })) ∧
      (d = some .held →
        exec (.accept p o.sequence) s =
          .next (settled.updTask x fun r => { r with state := .held, holdCause := some .command })) ∧
      (d = some .free → exec (.accept p o.sequence) s = .next (retire x false settled))

/-- R65: the applied accept of a CONTINUE offer. -/
def Obligations.AcceptOfAContinueOffer : Prop :=
  ∀ (p : Port) (s : State) (o : Offer), (s.port p).prst = false → s.rst = false →
    (s.port p).unit.command = none → (s.port p).occ.offer = some o → o.kind = .continueTask →
    let settled := fun u : State =>
      u.updPort p fun r =>
        { r with
          occ := { r.occ with offer := none, disposition := none, acceptStatus := .accepted }
          unit := { r.unit with intp := r.unit.intp &&& 0b1110 } }
    ((s.port p).occ.occupant = none → exec (.accept p o.sequence) s = .next (settled s)) ∧
    ∀ x, (s.port p).occ.occupant = some x → (s.task x).state = .running →
      exec (.accept p o.sequence) s =
        .next (settled (s.updTask x fun r => { r with remaining := r.quantum, delivery := none }))

/-! ### The exchange commands (chapters 4 and 5) -/

/-- R74, R98: XCH.OPEN out of range; with every record OPEN; with too few cells; and of the lowest CLOSED record. -/
def Obligations.XchOpenTakesTheLowestClosedRecord : Prop :=
  ∀ (p : Port) (s : State) (kind order size initial : Byte), s.Submitted p .xchOpen [kind, order, size, initial] →
    let inRange :=
      (order = 1 ∨ order = 2) ∧
        ((kind = 1 ∧ 1 ≤ size.toNat ∧ size.toNat ≤ 16 ∧ initial = 0) ∨
          (kind = 2 ∧ size ≠ 0 ∧ initial.toNat ≤ size.toNat))
    (¬inRange → exec (.xchOpen p) s = .next (s.completed p 0x12 [])) ∧
    (inRange → (∀ x, (s.exchange x).state ≠ .closed) → exec (.xchOpen p) s = .next (s.completed p 0x22 [])) ∧
    ∀ (x : Fin 16) (o : WaiterOrder), inRange → (s.exchange x).state = .closed →
      (∀ y < x, (s.exchange y).state ≠ .closed) → o.code = order →
      (kind = 1 → s.freeCells < size.toNat → exec (.xchOpen p) s = .next (s.completed p 0x21 [])) ∧
      (kind = 1 → size.toNat ≤ s.freeCells →
        exec (.xchOpen p) s =
          .next ({ s.setExchange x (.message o ⟨size.toNat, [], [], []⟩) with
            freeCells := s.freeCells - size.toNat }.completed p 0x00 [s.exchangeId x])) ∧
      (kind = 2 →
        exec (.xchOpen p) s =
          .next ((s.setExchange x (.count o ⟨size.toNat, initial.toNat, []⟩)).completed p 0x00 [s.exchangeId x]))

/-- R75, R77, R107, R108: XCH.CLOSE ends every wait with CLOSED in list order, discards the queue, returns the cells,
increments the generation and closes the record; XCH.QUERY reports the seven bytes. -/
def Obligations.XchCloseAndQuery : Prop :=
  ∀ (p : Port) (s : State) (x : Fin 16),
    let closing := fun (waiters : List Slot) (queued cells : Nat) =>
      let u := waiters.foldl (fun u t => endWait t .closed u) s
      exec (.xchClose p) s =
        .next ({ u with
          exchanges := u.exchanges.set x ⟨(s.exchange x).generation + 1, .closed⟩,
          freeCells := s.freeCells + cells }.completed p 0x00
            [BitVec.ofNat 8 waiters.length, BitVec.ofNat 8 queued])
    (s.Submitted p .xchClose [s.exchangeId x] →
      (∀ o b, (s.exchange x).state = .message o b → closing (b.receivers ++ b.senders) b.queue.length b.capacity) ∧
      ∀ o c, (s.exchange x).state = .count o c → closing c.acquirers 0 0) ∧
    (s.Submitted p .xchQuery [s.exchangeId x] →
      (∀ o b, (s.exchange x).state = .message o b →
        exec (.xchQuery p) s =
          .next (s.completed p 0x00
            [1, if o = .arrival then 1 else 2, BitVec.ofNat 8 b.capacity, BitVec.ofNat 8 b.queue.length,
              BitVec.ofNat 8 b.receivers.length, BitVec.ofNat 8 b.senders.length, BitVec.ofNat 8 s.freeCells])) ∧
      ∀ o c, (s.exchange x).state = .count o c →
        exec (.xchQuery p) s =
          .next (s.completed p 0x00
            [2, if o = .arrival then 1 else 2, BitVec.ofNat 8 c.ceiling, BitVec.ofNat 8 c.count,
              BitVec.ofNat 8 c.acquirers.length, 0, BitVec.ofNat 8 s.freeCells]))

/-- R84, R85, R86: MSG.SEND reaches the first matching receiver, else the queue, else is refused FULL or waits. -/
def Obligations.MsgSendHandsQueuesRefusesOrWaits : Prop :=
  ∀ (p : Port) (s : State) (x : Fin 16) (tag v₀ v₁ option lo hi : Byte),
    s.Submitted p .msgSend [s.exchangeId x, tag, v₀, v₁, option, lo, hi] →
    s.MayAsk p option → OptionInRange option (hi ++ lo) →
    (∀ o c, (s.exchange x).state = .count o c → exec (.msgSend p) s = .next (s.completed p 0x16 [])) ∧
    ∀ o b, (s.exchange x).state = .message o b →
      let mark : Half := if p = .A then 0x8000 else 0x8001
      let sender :=
        match (s.port p).occ.occupant with
        | some c => if (s.task c).doomed then mark else s.handle c
        | none => mark
      let m : Message := ⟨tag, v₁ ++ v₀, sender⟩
      let matching := fun t : Slot =>
        ∃ id low high d, (s.task t).wait = some ⟨.recv id low high, d⟩ ∧ low.toNat ≤ tag.toNat ∧ tag.toNat ≤ high.toNat
      (∀ before r after, b.receivers = before ++ r :: after → matching r → (∀ u ∈ before, ¬matching u) →
        exec (.msgSend p) s =
          .next ((endWait r (.ok (.message m))
            (s.setExchange x (.message o { b with receivers := before ++ after }))).completed p 0x00 [1])) ∧
      ((∀ u ∈ b.receivers, ¬matching u) → b.queue.length < b.capacity →
        exec (.msgSend p) s =
          .next ((s.setExchange x (.message o { b with queue := b.queue ++ [m] })).completed p 0x00 [2])) ∧
      ((∀ u ∈ b.receivers, ¬matching u) → b.capacity ≤ b.queue.length →
        (option = 0 → exec (.msgSend p) s = .next (s.completed p 0x23 [])) ∧
        ∀ c d, s.IsCaller p c → s.DeadlineIs option (hi ++ lo) d →
          exec (.msgSend p) s = .next (s.waitBegun p c (.send (s.exchangeId x) m) d))

/-- R87, R88: MSG.RECV takes the oldest matching message and refills, else is refused EMPTY or waits. -/
def Obligations.MsgRecvTakesRefusesOrWaits : Prop :=
  ∀ (p : Port) (s : State) (x : Fin 16) (low high option lo hi : Byte),
    s.Submitted p .msgRecv [s.exchangeId x, low, high, option, lo, hi] →
    s.MayAsk p option → OptionInRange option (hi ++ lo) →
    (high.toNat < low.toNat → exec (.msgRecv p) s = .next (s.completed p 0x12 [])) ∧
    (low.toNat ≤ high.toNat →
      (∀ o c, (s.exchange x).state = .count o c → exec (.msgRecv p) s = .next (s.completed p 0x16 [])) ∧
      ∀ o b, (s.exchange x).state = .message o b →
        let matching := fun m : Message => low.toNat ≤ m.tag.toNat ∧ m.tag.toNat ≤ high.toNat
        (∀ before m after, b.queue = before ++ m :: after → matching m → (∀ n ∈ before, ¬matching n) →
          exec (.msgRecv p) s =
            .next ((refill x (s.setExchange x (.message o { b with queue := before ++ after }))).completed p 0x00
              ([m.tag] ++ halfBytes m.value ++ halfBytes m.sender))) ∧
        ((∀ m ∈ b.queue, ¬matching m) →
          (option = 0 → exec (.msgRecv p) s = .next (s.completed p 0x24 [])) ∧
          ∀ c d, s.IsCaller p c → s.DeadlineIs option (hi ++ lo) d →
            exec (.msgRecv p) s = .next (s.waitBegun p c (.recv (s.exchangeId x) low high) d)))

/-- R89: refill ends when the queue is full or no sender waits; otherwise the head sender's wait ends with OK, its message
goes to the first matching receiver or to the queue, and refill goes on. -/
def Obligations.RefillMovesTheHeadSendersMessage : Prop :=
  (∀ (x : Fin 16) (s : State) (o : WaiterOrder) (b : Mailbox), (s.exchange x).state = .message o b →
    (b.capacity ≤ b.queue.length ∨ b.senders = [] → refill x s = s) ∧
    ∀ t rest id m d, b.queue.length < b.capacity → b.senders = t :: rest →
      (s.task t).wait = some ⟨.send id m, d⟩ →
      refill x s =
        refill x
          (deliverOrQueue x m (endWait t (.ok .none) (s.setExchange x (.message o { b with senders := rest }))))) ∧
  ∀ (x : Fin 16) (s : State) (o : WaiterOrder) (b : Mailbox) (m : Message), (s.exchange x).state = .message o b →
    let matching := fun t : Slot =>
      ∃ id low high d, (s.task t).wait = some ⟨.recv id low high, d⟩ ∧ low.toNat ≤ m.tag.toNat ∧ m.tag.toNat ≤ high.toNat
    (∀ before r after, b.receivers = before ++ r :: after → matching r → (∀ u ∈ before, ¬matching u) →
      deliverOrQueue x m s =
        endWait r (.ok (.message m)) (s.setExchange x (.message o { b with receivers := before ++ after }))) ∧
    ((∀ u ∈ b.receivers, ¬matching u) →
      deliverOrQueue x m s = s.setExchange x (.message o { b with queue := b.queue ++ [m] }))

/-- R100, R101, R102: CNT.ACQUIRE takes a unit, is refused EMPTY or waits; CNT.RELEASE completes the head acquirer, counts
the unit or is refused CEILING. -/
def Obligations.CntAcquireAndRelease : Prop :=
  (∀ (p : Port) (s : State) (x : Fin 16) (option lo hi : Byte),
    s.Submitted p .cntAcquire [s.exchangeId x, option, lo, hi] → s.MayAsk p option → OptionInRange option (hi ++ lo) →
    (∀ o b, (s.exchange x).state = .message o b → exec (.cntAcquire p) s = .next (s.completed p 0x16 [])) ∧
    ∀ o c, (s.exchange x).state = .count o c →
      (0 < c.count →
        exec (.cntAcquire p) s =
          .next ((s.setExchange x (.count o { c with count := c.count - 1 })).completed p 0x00
            [BitVec.ofNat 8 (c.count - 1)])) ∧
      (c.count = 0 →
        (option = 0 → exec (.cntAcquire p) s = .next (s.completed p 0x24 [])) ∧
        ∀ y d, s.IsCaller p y → s.DeadlineIs option (hi ++ lo) d →
          exec (.cntAcquire p) s = .next (s.waitBegun p y (.acquire (s.exchangeId x)) d))) ∧
  ∀ (p : Port) (s : State) (x : Fin 16), s.Submitted p .cntRelease [s.exchangeId x] →
    (∀ o b, (s.exchange x).state = .message o b → exec (.cntRelease p) s = .next (s.completed p 0x16 [])) ∧
    ∀ o c, (s.exchange x).state = .count o c →
      (∀ t rest, c.acquirers = t :: rest →
        exec (.cntRelease p) s =
          .next ((endWait t (.ok .none) (s.setExchange x (.count o { c with acquirers := rest }))).completed p 0x00
            [1, 0])) ∧
      (c.acquirers = [] → c.count < c.ceiling →
        exec (.cntRelease p) s =
          .next ((s.setExchange x (.count o { c with count := c.count + 1 })).completed p 0x00
            [2, BitVec.ofNat 8 (c.count + 1)])) ∧
      (c.acquirers = [] → c.ceiling ≤ c.count → exec (.cntRelease p) s = .next (s.completed p 0x25 []))

/-! ### The event lines (chapter 7) -/

/-- R136, R137, R139, R140: EVT.CONFIG, EVT.QUERY and EVT.WAIT. The settled level of a line not sampled since reset is a free
value (log entry 2): the statement holds for every level it may have. -/
def Obligations.EvtCommands : Prop :=
  ∀ (p : Port) (s : State),
    (∀ line edge release, s.Submitted p .evtConfig [line, edge, release] →
      (8 ≤ line.toNat ∨ 4 ≤ edge.toNat ∨ (release ≠ 1 ∧ release ≠ 2) →
        exec (.evtConfig p) s = .next (s.completed p 0x12 [])) ∧
      ∀ (l : Line) (em : EdgeMode) (rm : ReleaseMode), l.val = line.toNat → em.code = edge → rm.code = release →
        exec (.evtConfig p) s =
          .next ((s.updLine l fun r =>
            { r with edgeMode := em, releaseMode := rm, latch := 0, saturated := false }).completed p 0x00
              [BitVec.ofNat 8 (s.line l).latch, if (s.line l).saturated then 1 else 0])) ∧
    (∀ line, s.Submitted p .evtQuery [line] →
      (8 ≤ line.toNat → exec (.evtQuery p) s = .next (s.completed p 0x12 [])) ∧
      ∀ l : Line, l.val = line.toNat → ∃ (level : Bool) (drawn : Nat),
        ((s.line l).sampled = true → level = (s.line l).settled ∧ drawn = s.draws) ∧
        exec (.evtQuery p) s =
          .next ({ s.updLine l (fun r => { r with saturated := false }) with draws := drawn }.completed p 0x00
            [if level then 1 else 0, (s.line l).edgeMode.code, (s.line l).releaseMode.code,
              BitVec.ofNat 8 (s.line l).latch, if (s.line l).saturated then 1 else 0,
              BitVec.ofNat 8 (s.line l).waiters.length])) ∧
    ∀ line option lo hi, s.Submitted p .evtWait [line, option, lo, hi] → s.MayAsk p option →
      OptionInRange option (hi ++ lo) →
      (8 ≤ line.toNat → exec (.evtWait p) s = .next (s.completed p 0x12 [])) ∧
      ∀ l : Line, l.val = line.toNat →
        (0 < (s.line l).latch →
          exec (.evtWait p) s =
            .next ((s.updLine l fun r => { r with latch := r.latch - 1 }).completed p 0x00
              [BitVec.ofNat 8 ((s.line l).latch - 1)])) ∧
        ((s.line l).latch = 0 →
          (option = 0 → exec (.evtWait p) s = .next (s.completed p 0x24 [])) ∧
          ∀ c d, s.IsCaller p c → s.DeadlineIs option (hi ++ lo) d →
            exec (.evtWait p) s = .next (s.waitBegun p c (.event l) d))

/-- R131 to R134, R183: an edge moves the settled level; if the edge mode admits it, it releases the head waiter (ONE) or
every waiter in order (ALL), or with no waiter is latched, at 15 in the saturation flag. Under RST there is no edge. The
model's choices: that the row itself gives the settled level and clears the pending count, whatever level stood before, is
log entry 10; that it makes a line not sampled since reset count as sampled is log entry 2. -/
def Obligations.LineEventReleasesOrIsLatched : Prop :=
  ∀ (l : Line) (e : Edge) (s : State),
    let settled :=
      s.updLine l fun r => { r with sampled := true, settled := decide (e = .rising), pendingCount := false }
    let mode := (s.line l).edgeMode
    let admitted := mode = .both ∨ (mode = .rise ∧ e = .rising) ∨ (mode = .fall ∧ e = .falling)
    (s.rst = true → exec (.lineEvent l e) s = .next s) ∧
    (s.rst = false → ¬admitted → exec (.lineEvent l e) s = .next settled) ∧
    (s.rst = false → admitted →
      ((s.line l).waiters = [] → (s.line l).latch < 15 →
        exec (.lineEvent l e) s = .next (settled.updLine l fun r => { r with latch := r.latch + 1 })) ∧
      ((s.line l).waiters = [] → 15 ≤ (s.line l).latch →
        exec (.lineEvent l e) s = .next (settled.updLine l fun r => { r with saturated := true })) ∧
      ∀ t rest, (s.line l).waiters = t :: rest →
        ((s.line l).releaseMode = .one →
          exec (.lineEvent l e) s =
            .next (endWait t (.ok .none) (settled.updLine l fun r => { r with waiters := rest }))) ∧
        ((s.line l).releaseMode = .all →
          exec (.lineEvent l e) s =
            .next ((t :: rest).foldl (fun u t => endWait t (.ok .none) u)
              (settled.updLine l fun r => { r with waiters := [] }))))

/-- R131, R132, R143, R183: at a sample each line that makes no edge takes its new record, and each line that makes one, at
the second differing sample, has its edge recognised as LINE_EVENT says. In which order the edges of one sample are taken
is a free value (log entry 9): the statement holds for some order. Under RST no line is sampled. That the row takes the
edges it makes itself, and leaves none to a LINE_EVENT row, is the model's choice (log entry 10). -/
def Obligations.LineSampleFiltersAndFindsEdges : Prop :=
  ∀ (levels : Byte) (s : State),
    let level := fun l : Line => levels.getLsbD l.val
    let hasEdge := fun l : Line =>
      (s.line l).sampled = true ∧ (s.line l).pendingCount = true ∧ level l ≠ (s.line l).settled
    (s.rst = true → exec (.lineSample levels) s = .next s) ∧
    (s.rst = false →
      ∃ (order : List Line) (quiet : State) (drawn : Nat),
        order.Nodup ∧ (∀ l, l ∈ order ↔ hasEdge l) ∧
        quiet = { s with lines := quiet.lines, draws := drawn } ∧
        (∀ l, hasEdge l → quiet.line l = s.line l) ∧
        (∀ l, (s.line l).sampled = false →
          quiet.line l = { s.line l with sampled := true, settled := level l, pendingCount := false }) ∧
        (∀ l, (s.line l).sampled = true → level l = (s.line l).settled →
          quiet.line l = { s.line l with pendingCount := false }) ∧
        (∀ l, (s.line l).sampled = true → level l ≠ (s.line l).settled → (s.line l).pendingCount = false →
          quiet.line l = { s.line l with pendingCount := true }) ∧
        exec (.lineSample levels) s =
          order.foldl
            (fun (u : Host.Outcome State Fault Refusal) l =>
              match u with
              | .next u => exec (.lineEvent l (if level l then .rising else .falling)) u
              | .fault f => .fault f
              | .refused r => .refused r)
            (.next quiet))

/-! ### The Page Pool (chapter 8) -/

/-- R148, R149, R150: first fit is the lowest page that starts n free pages of the pool; serving grants the head request as
long as a free entry and a fit exist, each grant whole before the next, and otherwise changes nothing. -/
def Obligations.FirstFitAndServing : Prop :=
  (∀ (q : PagePool) (n : Nat), 1 ≤ n →
    let fits := fun k : Nat => ∀ i < n, k + i < q.size ∧ ∃ h : k + i < 128, q.pageMap[k + i] = none
    (q.firstFit n = none ↔ ∀ k, ¬fits k) ∧ ∀ k, q.firstFit n = some k ↔ fits k ∧ ∀ j < k, ¬fits j) ∧
  (∀ q : PagePool, (q.freeEntry = none ↔ ∀ e : Fin 64, q.runs[e] ≠ none) ∧
    ∀ e : Fin 64, q.freeEntry = some e → q.runs[e] = none) ∧
  ∀ s : State,
    (s.pool.waitQueue = [] → serveCount s = (s, 0)) ∧
    ∀ t rest, s.pool.waitQueue = t :: rest →
      (s.pool.freeEntry = none ∨ s.pool.firstFit (s.askedPages t) = none → serveCount s = (s, 0)) ∧
      ∀ e k, s.pool.freeEntry = some e → s.pool.firstFit (s.askedPages t) = some k →
        let granted := { s with pool := { s.pool.createRun e k (s.askedPages t) t with waitQueue := rest } }
        let next := serveCount (endWait t (.ok (.page (BitVec.ofNat 8 k))) granted)
        serveCount s = (next.1, next.2 + 1)

/-- R147, R148, R149: PAGE.ALLOC out of range, granted first fit, refused, or waiting. -/
def Obligations.PageAllocGrantsRefusesOrWaits : Prop :=
  ∀ (p : Port) (s : State) (x : Slot) (n option lo hi : Byte), s.IsCaller p x →
    s.Submitted p .pageAlloc [n, option, lo, hi] →
    let inRange := 1 ≤ n.toNat ∧ n.toNat ≤ 32 ∧ n.toNat ≤ s.pool.size ∧ OptionInRange option (hi ++ lo)
    (¬inRange → exec (.pageAlloc p) s = .next (s.completed p 0x12 [])) ∧
    (∀ e k, inRange → s.pool.waitQueue = [] → s.pool.freeEntry = some e → s.pool.firstFit n.toNat = some k →
      exec (.pageAlloc p) s =
        .next ({ s with
          pool :=
            { s.pool with
              runs := s.pool.runs.set e (some ⟨k, n.toNat, x⟩)
              pageMap := Vector.ofFn fun j : Fin 128 =>
                if k ≤ j.val ∧ j.val < k + n.toNat then some e else s.pool.pageMap[j]
              freePages := s.pool.freePages - n.toNat } }.completed p 0x00 [BitVec.ofNat 8 k])) ∧
    (inRange → s.pool.waitQueue ≠ [] ∨ s.pool.freeEntry = none ∨ s.pool.firstFit n.toNat = none →
      (option = 0 → s.pool.freeEntry = none → exec (.pageAlloc p) s = .next (s.completed p 0x27 [])) ∧
      (option = 0 → s.pool.freeEntry ≠ none → exec (.pageAlloc p) s = .next (s.completed p 0x26 [])) ∧
      ∀ d, s.DeadlineIs option (hi ++ lo) d →
        exec (.pageAlloc p) s = .next (s.waitBegun p x (.pages n.toNat) d))

/-- R153, R155: PAGE.FREE by the owner and PAGE.RECLAIM by anyone remove a run and serve the queue; a page outside the pool,
no first page of a run, or another's run is refused. That one run starts at a page is the law of R145. -/
def Obligations.PageFreeAndReclaimRemoveARun : Prop :=
  ∀ (p : Port) (s : State) (page : Byte),
    let start := fun r : Run => r.first = page.toNat
    let removing := fun (e : Fin 64) (r : Run) =>
      serveCount
        { s with
          pool :=
            { s.pool with
              runs := s.pool.runs.set e none
              pageMap := Vector.ofFn fun k : Fin 128 =>
                if r.first ≤ k.val ∧ k.val < r.first + r.length then none else s.pool.pageMap[k]
              freePages := s.pool.freePages + r.length } }
    let noRun := ∀ (e : Fin 64) (r : Run), s.pool.runs[e] = some r → ¬start r
    let oneRun := fun (e : Fin 64) (r : Run) =>
      s.pool.runs[e] = some r ∧ start r ∧ ∀ (f : Fin 64) (q : Run), s.pool.runs[f] = some q → start q → f = e
    (∀ x, s.IsCaller p x → s.Submitted p .pageFree [page] →
      (s.pool.size ≤ page.toNat → exec (.pageFree p) s = .next (s.completed p 0x12 [])) ∧
      (page.toNat < s.pool.size → noRun → exec (.pageFree p) s = .next (s.completed p 0x29 [])) ∧
      ∀ e r, page.toNat < s.pool.size → oneRun e r →
        (r.owner ≠ x → exec (.pageFree p) s = .next (s.completed p 0x28 [])) ∧
        (r.owner = x →
          exec (.pageFree p) s =
            .next ((removing e r).1.completed p 0x00
              [BitVec.ofNat 8 r.length, BitVec.ofNat 8 (removing e r).2]))) ∧
    (s.Submitted p .pageReclaim [page] →
      (s.pool.size ≤ page.toNat → exec (.pageReclaim p) s = .next (s.completed p 0x12 [])) ∧
      (page.toNat < s.pool.size → noRun → exec (.pageReclaim p) s = .next (s.completed p 0x29 [])) ∧
      ∀ e r, page.toNat < s.pool.size → oneRun e r →
        exec (.pageReclaim p) s =
          .next ((removing e r).1.completed p 0x00
            (halfBytes (s.handle r.owner) ++ [BitVec.ofNat 8 r.length, BitVec.ofNat 8 (removing e r).2])))

/-- R146, R154, R157: PAGE.GIVE, PAGE.QUERY and PAGE.CONFIG. A doomed target is refused STALE_HANDLE. -/
def Obligations.PageGiveQueryAndConfig : Prop :=
  ∀ (p : Port) (s : State) (page : Byte),
    let start := fun r : Run => r.first = page.toNat
    (∀ x lo hi, s.IsCaller p x → s.Submitted p .pageGive [page, lo, hi] →
      let v := (hi ++ lo).toNat
      (s.pool.size ≤ page.toNat ∨ v % 64 = 0 ∨ 48 < v % 64 ∨ 0x3FF < v →
        exec (.pageGive p) s = .next (s.completed p 0x12 [])) ∧
      (∀ t : Slot, page.toNat < s.pool.size → v % 64 = t.val + 1 → v ≤ 0x3FF →
        v / 64 ≠ (s.task t).generation.toNat ∨ (s.task t).state = .free ∨ (s.task t).doomed = true →
        exec (.pageGive p) s = .next (s.completed p 0x13 [])) ∧
      ∀ t : Slot, page.toNat < s.pool.size → hi ++ lo = s.handle t → (s.task t).state ≠ .free →
        (s.task t).doomed = false →
        ((∀ (e : Fin 64) (r : Run), s.pool.runs[e] = some r → ¬start r) →
          exec (.pageGive p) s = .next (s.completed p 0x29 [])) ∧
        ∀ (e : Fin 64) (r : Run), s.pool.runs[e] = some r → start r →
          (∀ (f : Fin 64) (q : Run), s.pool.runs[f] = some q → start q → f = e) →
          (r.owner ≠ x → exec (.pageGive p) s = .next (s.completed p 0x28 [])) ∧
          (r.owner = x →
            exec (.pageGive p) s =
              .next ({ s with
                pool := { s.pool with runs := s.pool.runs.set e (some { r with owner := t }) } }.completed p 0x00 []))) ∧
    (s.Submitted p .pageQuery [page] →
      let pool :=
        [BitVec.ofNat 8 s.pool.freePages, BitVec.ofNat 8 (64 - s.pool.runList.length),
          BitVec.ofNat 8 s.pool.waitQueue.length]
      (s.pool.size ≤ page.toNat → exec (.pageQuery p) s = .next (s.completed p 0x12 [])) ∧
      (page.toNat < s.pool.size → s.pool.entryOf page.toNat = none →
        exec (.pageQuery p) s = .next (s.completed p 0x00 ([0, 0, 0, 0, 0] ++ pool))) ∧
      ∀ (e : Fin 64) (r : Run), page.toNat < s.pool.size → s.pool.entryOf page.toNat = some e → s.pool.runs[e] = some r →
        exec (.pageQuery p) s =
          .next (s.completed p 0x00
            ([if (s.task r.owner).doomed then 2 else 1] ++ halfBytes (s.handle r.owner) ++
              [BitVec.ofNat 8 r.first, BitVec.ofNat 8 r.length] ++ pool))) ∧
    (s.Submitted p .pageConfig [page] →
      (page = 0 ∨ 128 < page.toNat → exec (.pageConfig p) s = .next (s.completed p 0x12 [])) ∧
      (page ≠ 0 → page.toNat ≤ 128 →
        ((∃ e : Fin 64, s.pool.runs[e] ≠ none) ∨ s.pool.waitQueue ≠ [] →
          exec (.pageConfig p) s = .next (s.completed p 0x15 [])) ∧
        ((∀ e : Fin 64, s.pool.runs[e] = none) → s.pool.waitQueue = [] →
          exec (.pageConfig p) s =
            .next ({ s with
              pool :=
                { s.pool with
                  size := page.toNat, pageMap := Vector.replicate 128 none,
                  freePages := page.toNat } }.completed p 0x00 [BitVec.ofNat 8 s.pool.size]))))

/-! ### Time (chapter 6) -/

/-- R113, R114: TIME.CONFIG stores N for the next tick period and returns the old one; TIME.READ returns the counter, low
byte first. -/
def Obligations.TimeConfigAndRead : Prop :=
  ∀ (p : Port) (s : State),
    (∀ lo hi, s.Submitted p .timeConfig [lo, hi] →
      let n := (hi ++ lo).toNat
      (n = 0 ∨ 10000 < n → exec (.timeConfig p) s = .next (s.completed p 0x12 [])) ∧
      (1 ≤ n → n ≤ 10000 →
        exec (.timeConfig p) s =
          .next ({ s with time := { s.time with storedN := n } }.completed p 0x00
            [BitVec.ofNat 8 s.time.storedN, BitVec.ofNat 8 (s.time.storedN / 256)]))) ∧
    (s.Submitted p .timeRead [] →
      exec (.timeRead p) s =
        .next (s.completed p 0x00
          [BitVec.ofNat 8 s.time.counter.toNat, BitVec.ofNat 8 (s.time.counter.toNat / 256),
            BitVec.ofNat 8 (s.time.counter.toNat / 65536), BitVec.ofNat 8 (s.time.counter.toNat / 16777216)]))

/-- R61, R118 to R121, R124, R125, R183: a tick increments the counter and begins a tick period of the stored N, expires the
due entries in list order, each whole, and counts the quanta of both ports, in an order that is a free value (log entry 8);
an expiry ends the wait with OK (DELAY) or TIMEOUT, and serves the page-wait queue from its new head if the task was its
head; a slice expiry offers the port to the first eligible READY task of the occupant's level, or reloads the quantum. The
model's choices: that the row EXPIRY is one due entry taken by itself beside the TICK, and that SLICE_EXPIRY includes the
decrement that brings the quantum to 0, is log entry 11; that either changes nothing otherwise is log entry 6. -/
def Obligations.TickExpiryAndSliceExpiry : Prop :=
  (∀ s : State, s.rst = true → exec .tick s = .next s) ∧
  (∀ s : State, s.rst = false →
    let begun :=
      { s with
        time :=
          { s.time with
            counter := s.time.counter + 1, baseDivider := 0, intervalCounter := 0, periodN := s.time.storedN } }
    let due := (s.time.timers.filter fun e => e.deadline == s.time.counter + 1).map (·.task)
    let expired := due.foldl (fun u t => expire t u) begun
    ∃ drawn, exec .tick s = .next (countQuantum .B (countQuantum .A { expired with draws := drawn })) ∨
      exec .tick s = .next (countQuantum .A (countQuantum .B { expired with draws := drawn }))) ∧
  (∀ (s : State) (t : Slot),
    exec (.expiry t) s = .next (expire t s) ∧
    ((⟨t, s.time.counter⟩ : TimerEntry) ∉ s.time.timers → expire t s = s) ∧
    ((⟨t, s.time.counter⟩ : TimerEntry) ∈ s.time.timers →
      ∀ w, (s.task t).wait = some w →
        let ended := endWait t (if w.kind = .delay then .ok .none else .timeout) s
        expire t s = if s.pool.waitQueue.head? = some t then serve ended else ended)) ∧
  ∀ (s : State) (p : Port),
    let counted := fun x => (s.port p).occ.offer = none ∧ (s.port p).occ.occupant = some x ∧ (s.task x).quantum ≠ 0
    ((∀ x, ¬counted x) → countQuantum p s = s ∧ exec (.sliceExpiry p) s = .next s) ∧
    ∀ x, counted x →
      ((s.task x).remaining ≠ 1 →
        countQuantum p s = s.updTask x (fun r => { r with remaining := r.remaining - 1 }) ∧
        exec (.sliceExpiry p) s = .next s) ∧
      ((s.task x).remaining = 1 →
        exec (.sliceExpiry p) s = .next (countQuantum p s) ∧
        ((∀ t ∈ s.queue (s.task x).priority, ¬s.EligibleFor p t) →
          countQuantum p s = s.updTask x fun r => { r with remaining := r.quantum }) ∧
        ∀ f, s.FirstEligible p (s.task x).priority f →
          countQuantum p s =
            offerTask p f ((s.updTask x fun r => { r with remaining := 0 }).setDisposition p .readyTail))

/-! ### Lifecycle, loss and reset (chapter 10) -/

/-- R178, R179: PORT.ENABLE; PORT.DROP and PEER.DROP of an ENABLED port are its loss; the assertion of PRST is the loss of its
port, ENABLED or not, and closes its window; its release opens the window. -/
def Obligations.PortCommandsAndPrst : Prop :=
  ∀ (p : Port) (s : State),
    (s.Submitted p .portEnable [] →
      ((s.port p).lifecycle = .enabled → exec (.portEnable p) s = .next (s.completed p 0x15 [])) ∧
      ((s.port p).lifecycle = .disabled →
        exec (.portEnable p) s =
          .next (((redecide p false (s.updPort p fun r => { r with lifecycle := .enabled })).updPort (otherPort p)
            fun r =>
              { r with
                unit := { r.unit with intp := if r.prst then r.unit.intp else r.unit.intp ||| 0b1000 } }).completed p
            0x00 []))) ∧
    (s.Submitted p .portDrop [] →
      ((s.port p).lifecycle = .disabled → exec (.portDrop p) s = .next (s.completed p 0x15 [])) ∧
      ((s.port p).lifecycle = .enabled → exec (.portDrop p) s = .next (losePortWhole p s))) ∧
    (s.Submitted p .peerDrop [] →
      ((s.port (otherPort p)).lifecycle = .disabled → exec (.peerDrop p) s = .next (s.completed p 0x15 [])) ∧
      ((s.port (otherPort p)).lifecycle = .enabled →
        exec (.peerDrop p) s = .next ((losePortWhole (otherPort p) s).completed p 0x00 []))) ∧
    exec (.prstAssert p) s = .next (losePortWhole p (s.updPort p fun r => { r with prst := true })) ∧
    exec (.prstRelease p) s = .next (s.updPort p fun r => { r with prst := false })

/-- R180, R181: the loss of a port. Its own records; PEER_DOWN on the other port; what its occupant becomes; the incoming
of its removed SWITCH offer to the head of its level; one serving if runs were released or the head of the page-wait queue
left. -/
def Obligations.LossOfAPort : Prop :=
  ∀ (p : Port) (s : State),
    let old := s.port p
    let shut :=
      s.updPort p fun r =>
        { r with
          lifecycle := .disabled
          occ := { r.occ with occupant := none, offer := none, disposition := none }
          unit :=
            { r.unit with
              staging := [], command := none, res := 0, results := [], overrun := false, intp := 0, inte := 0 } }
    let peer := fun u : State =>
      if old.lifecycle = .enabled then
        u.updPort (otherPort p) fun r =>
          { r with unit := { r.unit with intp := if r.prst then r.unit.intp else r.unit.intp ||| 0b0100 } }
      else u
    let freed := fun u : State =>
      match old.occ.offer with
      | some o => (match o.kind, o.incoming with | .switchTask, some y => readyHead y u | _, _ => u)
      | none => u
    let held := fun (x : Slot) (u : State) =>
      u.updTask x fun r => { r with state := .held, holdFlag := false, holdCause := some .portLost }
    ((losePortWhole p s).port p = shut.port p) ∧
    (old.occ.occupant = none → losePortWhole p s = freed (peer shut)) ∧
    ∀ x, old.occ.occupant = some x →
      ((s.task x).doomed = true →
        losePortWhole p s =
          if s.pool.runsOf x ≠ [] then serve (freed (peer (freeSlot x shut))) else freed (peer (freeSlot x shut))) ∧
      ((s.task x).doomed = false → old.occ.disposition ≠ some .wait →
        losePortWhole p s = freed (peer (held x shut))) ∧
      ((s.task x).doomed = false → old.occ.disposition = some .wait →
        let cancelled := held x ((leaveWait x shut).updTask x fun r => { r with wait := none, delivery := some .lost })
        losePortWhole p s =
          if s.pool.waitQueue.head? = some x then serve (freed (peer cancelled)) else freed (peer cancelled))

/-- R183, R129, R143: DEVICE.RESET while the other port is DISABLED, and the assertion of RST, give every block its reset
values; the input levels, the data lines, the queue and the free-value counter, which are no record of the part, stay (log
entries 3 to 5). The release of RST begins a tick period, and each line takes its level from its next sample. -/
def Obligations.DeviceResetAndRst : Prop :=
  ∀ (s : State),
    let port := fun r : PortRecord =>
      { resetPort with prst := r.prst, unit := { resetUnit with dataOut := r.unit.dataOut } }
    let reset :=
      { State.reset with
        portA := port s.portA, portB := port s.portB, rst := s.rst, draws := s.draws, pending := s.pending }
    (∀ p, s.Submitted p .deviceReset [] →
      ((s.port (otherPort p)).lifecycle = .enabled → exec (.deviceReset p) s = .next (s.completed p 0x2A [])) ∧
      ((s.port (otherPort p)).lifecycle = .disabled → exec (.deviceReset p) s = .next reset)) ∧
    exec .rstAssert s = .next { reset with rst := true } ∧
    (s.rst = true → ∃ u, exec .rstRelease s = .next u ∧
      u = { s with
        rst := false, time := { s.time with baseDivider := 0, intervalCounter := 0 }, lines := u.lines } ∧
      ∀ l, u.line l = { s.line l with sampled := false, pendingCount := false }) ∧
    (s.rst = false → exec .rstRelease s = .next s)

/-! ### Frames -/

/-- R12, R13, R17, R18, R20 to R23, R40, R61: the commands that only move a task, write its record or report it leave every
object, the Tick Unit and the inputs. -/
def Obligations.TaskCommandsLeaveTheObjects : Prop :=
  ∀ (p : Port) (c : Instr) (s u : State),
    c ∈ [Instr.taskCreate p, .taskStart p, .taskHold p, .taskRelease p, .taskSetaff p, .taskSetctx p, .taskQuery p,
      .taskSelf p, .taskYield p, .sliceExpiry p] →
    exec c s = .next u →
    u.exchanges = s.exchanges ∧ u.freeCells = s.freeCells ∧ u.time = s.time ∧ u.lines = s.lines ∧ u.pool = s.pool ∧
      u.rst = s.rst ∧ u.draws = s.draws

/-- What a command or an access on one port leaves of the other: its lifecycle, its PRST, its occupant, its accept status and
its Port Unit, of whose interrupt causes OFFER, PEER_DOWN and PEER_UP may become pending and none is cleared. PEER.DROP and
DEVICE.RESET are the two commands that reach further. -/
def Obligations.TheOtherPortKeepsItsRecords : Prop :=
  ∀ (p : Port) (c : Instr) (s u : State),
    (∃ k : CommandCode, k ≠ .peerDrop ∧ k ≠ .deviceReset ∧ c = k.row p) ∨ c = .badCommand p ∨ c = .prmRead p ∨
      (∃ v, c = .prmWrite p v ∨ c = .intpWrite p v ∨ c = .inteWrite p v ∨ c = .accept p v ∨ c = .cmdWrite p v) ∨
      c = .prstAssert p ∨ c = .prstRelease p →
    exec c s = .next u →
    let q := otherPort p
    (u.port q).lifecycle = (s.port q).lifecycle ∧ (u.port q).prst = (s.port q).prst ∧
      (u.port q).occ.occupant = (s.port q).occ.occupant ∧ (u.port q).occ.acceptStatus = (s.port q).occ.acceptStatus ∧
      (u.port q).unit = { (s.port q).unit with intp := (u.port q).unit.intp } ∧
      (∀ i, (s.port q).unit.intp.getLsbD i = true → (u.port q).unit.intp.getLsbD i = true) ∧
      (u.port q).unit.intp.getLsbD 1 = (s.port q).unit.intp.getLsbD 1

/-- Which command changes which field, device reset apart (R2 "Set by", R3, R71, R72, R113, R114, R130, R144): of a task that
is not FREE before and after, its generation, priority, affinity, context word and quantum; of the objects, an exchange's
generation, the free cells, a line's modes, the pool size, N and the tick counter. The premise rules out states that no run
reaches, where one task is occupant and incoming at once; EveryStepKeepsTheDispatcherLaw says that every step keeps it. -/
def Obligations.FieldsChangeOnlyByTheirCommands : Prop :=
  ∀ (c : Instr) (s u : State), s.DispatcherLaw → exec c s = .next u → (∀ p, c ≠ .deviceReset p) →
    c ≠ .rstAssert →
    (∀ t, ((∀ p, c ≠ .taskDelete p) → (∀ p, c ≠ .taskExit p) → (u.task t).generation = (s.task t).generation) ∧
      ((s.task t).state ≠ .free → (u.task t).state ≠ .free →
        ((∀ p, c ≠ .taskSetpri p) → (u.task t).priority = (s.task t).priority) ∧
        ((∀ p, c ≠ .taskSetaff p) → (u.task t).affinity = (s.task t).affinity) ∧
        ((∀ p, c ≠ .taskSetctx p) → (u.task t).context = (s.task t).context) ∧
        (u.task t).quantum = (s.task t).quantum)) ∧
    (∀ x, (∀ p, c ≠ .xchClose p) → (u.exchange x).generation = (s.exchange x).generation) ∧
    ((∀ p, c ≠ .xchOpen p) → (∀ p, c ≠ .xchClose p) → u.freeCells = s.freeCells) ∧
    (∀ l, (∀ p, c ≠ .evtConfig p) →
      (u.line l).edgeMode = (s.line l).edgeMode ∧ (u.line l).releaseMode = (s.line l).releaseMode) ∧
    ((∀ p, c ≠ .pageConfig p) → u.pool.size = s.pool.size) ∧
    ((∀ p, c ≠ .timeConfig p) → u.time.storedN = s.time.storedN) ∧
    (c ≠ .tick → u.time.counter = s.time.counter)

/-! ### The laws that every step keeps -/

/-- Every step keeps the laws of each port's records (R45, R46, R163, R164, R171, R177). -/
def Obligations.EveryStepKeepsThePortLaws : Prop :=
  ∀ s u : State, step s = .next u → (∀ p, (s.port p).Lawful) → ∀ p, (u.port p).Lawful

/-- Every step keeps the laws of each object: an exchange's queue, senders, count and acquirers (R79, R81, R97), the cell pool
(R73), a line's latch (R130), and the Tick Unit's bounds (R112, R113). Each is kept by itself. -/
def Obligations.EveryStepKeepsTheObjectLaws : Prop :=
  ∀ s u : State, step s = .next u →
    ((∀ x, (s.exchange x).state.Lawful) → ∀ x, (u.exchange x).state.Lawful) ∧
    (s.CellLaw → u.CellLaw) ∧
    ((∀ l, (s.line l).Lawful) → ∀ l, (u.line l).Lawful) ∧
    (s.time.Bounded → u.time.Bounded)

/-- Every step keeps the Dispatcher's records in agreement with the places of the tasks (R29, R45, R47, R48, R49). -/
def Obligations.EveryStepKeepsTheDispatcherLaw : Prop :=
  ∀ s u : State, step s = .next u → s.DispatcherLaw → u.DispatcherLaw

/-- R38: in a state where the Dispatcher's records agree, every step keeps the law that no READY task permitted on an ENABLED
port is more urgent than that port's next. -/
def Obligations.EveryStepKeepsTheUrgencyLaw : Prop :=
  ∀ s u : State, step s = .next u → s.DispatcherLaw → s.UrgencyLaw → u.UrgencyLaw

/-- Every step from a state that meets all the laws gives a state that meets them all. Beside the laws of the four statements
above these are affinity (R45), doomed tasks (R10), the timer list and its order (R115, R116), waits and their lists (R7, R81,
R99, R135, R149), filters (R80), the Page Pool, where every page has at most one owner (R144, R145), and its blocked head
(R149). -/
def Obligations.EveryStepKeepsEveryLaw : Prop :=
  ∀ s u : State, step s = .next u → s.Lawful → u.Lawful

/-- Right after reset every law holds. -/
def Obligations.ResetMeetsTheLaws : Prop :=
  (∀ p, (State.reset.port p).Lawful) ∧ (∀ x, (State.reset.exchange x).state.Lawful) ∧ State.reset.CellLaw ∧
    (∀ l, (State.reset.line l).Lawful) ∧ State.reset.time.Bounded ∧ State.reset.DispatcherLaw ∧ State.reset.UrgencyLaw ∧
    State.reset.AffinityLaw ∧ State.reset.TimerLaw ∧ State.reset.TimerOrder ∧ State.reset.WaitLaw ∧
    State.reset.FilterLaw ∧ State.reset.PoolLaw ∧ State.reset.HeadBlocked ∧ State.reset.DoomedLaw ∧ State.reset.Lawful

end Statements
end

