-- ==== Sys2Proof/Laws/State.lean ====
section
/-! SUPPORT. What each update of the state leaves in each field, and what it changes where it writes: one lemma per field
per update, so that no later proof unfolds a record update. -/

namespace Sys2Proof.Machine

/-! ### State.updTask -/

@[simp] theorem State.updTask_queues (s : State) (t : Slot) (f : TaskRecord → TaskRecord) :
    (s.updTask t f).queues = s.queues := rfl

@[simp] theorem State.updTask_portA (s : State) (t : Slot) (f : TaskRecord → TaskRecord) :
    (s.updTask t f).portA = s.portA := rfl

@[simp] theorem State.updTask_portB (s : State) (t : Slot) (f : TaskRecord → TaskRecord) :
    (s.updTask t f).portB = s.portB := rfl

@[simp] theorem State.updTask_exchanges (s : State) (t : Slot) (f : TaskRecord → TaskRecord) :
    (s.updTask t f).exchanges = s.exchanges := rfl

@[simp] theorem State.updTask_freeCells (s : State) (t : Slot) (f : TaskRecord → TaskRecord) :
    (s.updTask t f).freeCells = s.freeCells := rfl

@[simp] theorem State.updTask_time (s : State) (t : Slot) (f : TaskRecord → TaskRecord) :
    (s.updTask t f).time = s.time := rfl

@[simp] theorem State.updTask_lines (s : State) (t : Slot) (f : TaskRecord → TaskRecord) :
    (s.updTask t f).lines = s.lines := rfl

@[simp] theorem State.updTask_pool (s : State) (t : Slot) (f : TaskRecord → TaskRecord) :
    (s.updTask t f).pool = s.pool := rfl

@[simp] theorem State.updTask_rst (s : State) (t : Slot) (f : TaskRecord → TaskRecord) :
    (s.updTask t f).rst = s.rst := rfl

@[simp] theorem State.updTask_draws (s : State) (t : Slot) (f : TaskRecord → TaskRecord) :
    (s.updTask t f).draws = s.draws := rfl

@[simp] theorem State.updTask_pending (s : State) (t : Slot) (f : TaskRecord → TaskRecord) :
    (s.updTask t f).pending = s.pending := rfl

@[simp] theorem State.updTask_queue (s : State) (t : Slot) (f : TaskRecord → TaskRecord) (w : Fin 32) :
    (s.updTask t f).queue w = s.queue w := rfl

@[simp] theorem State.updTask_port (s : State) (t : Slot) (f : TaskRecord → TaskRecord) (q : Port) :
    (s.updTask t f).port q = s.port q := by cases q <;> rfl

@[simp] theorem State.updTask_exchange (s : State) (t : Slot) (f : TaskRecord → TaskRecord) (y : Fin 16) :
    (s.updTask t f).exchange y = s.exchange y := rfl

@[simp] theorem State.updTask_line (s : State) (t : Slot) (f : TaskRecord → TaskRecord) (m : Line) :
    (s.updTask t f).line m = s.line m := rfl

/-! ### State.setTaskState -/

@[simp] theorem State.setTaskState_queues (s : State) (t : Slot) (st : TaskState) :
    (s.setTaskState t st).queues = s.queues := rfl

@[simp] theorem State.setTaskState_portA (s : State) (t : Slot) (st : TaskState) :
    (s.setTaskState t st).portA = s.portA := rfl

@[simp] theorem State.setTaskState_portB (s : State) (t : Slot) (st : TaskState) :
    (s.setTaskState t st).portB = s.portB := rfl

@[simp] theorem State.setTaskState_exchanges (s : State) (t : Slot) (st : TaskState) :
    (s.setTaskState t st).exchanges = s.exchanges := rfl

@[simp] theorem State.setTaskState_freeCells (s : State) (t : Slot) (st : TaskState) :
    (s.setTaskState t st).freeCells = s.freeCells := rfl

@[simp] theorem State.setTaskState_time (s : State) (t : Slot) (st : TaskState) :
    (s.setTaskState t st).time = s.time := rfl

@[simp] theorem State.setTaskState_lines (s : State) (t : Slot) (st : TaskState) :
    (s.setTaskState t st).lines = s.lines := rfl

@[simp] theorem State.setTaskState_pool (s : State) (t : Slot) (st : TaskState) :
    (s.setTaskState t st).pool = s.pool := rfl

@[simp] theorem State.setTaskState_rst (s : State) (t : Slot) (st : TaskState) :
    (s.setTaskState t st).rst = s.rst := rfl

@[simp] theorem State.setTaskState_draws (s : State) (t : Slot) (st : TaskState) :
    (s.setTaskState t st).draws = s.draws := rfl

@[simp] theorem State.setTaskState_pending (s : State) (t : Slot) (st : TaskState) :
    (s.setTaskState t st).pending = s.pending := rfl

@[simp] theorem State.setTaskState_queue (s : State) (t : Slot) (st : TaskState) (w : Fin 32) :
    (s.setTaskState t st).queue w = s.queue w := rfl

@[simp] theorem State.setTaskState_port (s : State) (t : Slot) (st : TaskState) (q : Port) :
    (s.setTaskState t st).port q = s.port q := by cases q <;> rfl

@[simp] theorem State.setTaskState_exchange (s : State) (t : Slot) (st : TaskState) (y : Fin 16) :
    (s.setTaskState t st).exchange y = s.exchange y := rfl

@[simp] theorem State.setTaskState_line (s : State) (t : Slot) (st : TaskState) (m : Line) :
    (s.setTaskState t st).line m = s.line m := rfl

/-! ### State.updPort -/

@[simp] theorem State.updPort_tasks (s : State) (p : Port) (f : PortRecord → PortRecord) :
    (s.updPort p f).tasks = s.tasks := by cases p <;> rfl

@[simp] theorem State.updPort_queues (s : State) (p : Port) (f : PortRecord → PortRecord) :
    (s.updPort p f).queues = s.queues := by cases p <;> rfl

@[simp] theorem State.updPort_exchanges (s : State) (p : Port) (f : PortRecord → PortRecord) :
    (s.updPort p f).exchanges = s.exchanges := by cases p <;> rfl

@[simp] theorem State.updPort_freeCells (s : State) (p : Port) (f : PortRecord → PortRecord) :
    (s.updPort p f).freeCells = s.freeCells := by cases p <;> rfl

@[simp] theorem State.updPort_time (s : State) (p : Port) (f : PortRecord → PortRecord) :
    (s.updPort p f).time = s.time := by cases p <;> rfl

@[simp] theorem State.updPort_lines (s : State) (p : Port) (f : PortRecord → PortRecord) :
    (s.updPort p f).lines = s.lines := by cases p <;> rfl

@[simp] theorem State.updPort_pool (s : State) (p : Port) (f : PortRecord → PortRecord) :
    (s.updPort p f).pool = s.pool := by cases p <;> rfl

@[simp] theorem State.updPort_rst (s : State) (p : Port) (f : PortRecord → PortRecord) :
    (s.updPort p f).rst = s.rst := by cases p <;> rfl

@[simp] theorem State.updPort_draws (s : State) (p : Port) (f : PortRecord → PortRecord) :
    (s.updPort p f).draws = s.draws := by cases p <;> rfl

@[simp] theorem State.updPort_pending (s : State) (p : Port) (f : PortRecord → PortRecord) :
    (s.updPort p f).pending = s.pending := by cases p <;> rfl

@[simp] theorem State.updPort_task (s : State) (p : Port) (f : PortRecord → PortRecord) (u : Slot) :
    (s.updPort p f).task u = s.task u := by simp [State.task]

@[simp] theorem State.updPort_queue (s : State) (p : Port) (f : PortRecord → PortRecord) (w : Fin 32) :
    (s.updPort p f).queue w = s.queue w := by simp [State.queue]

@[simp] theorem State.updPort_exchange (s : State) (p : Port) (f : PortRecord → PortRecord) (y : Fin 16) :
    (s.updPort p f).exchange y = s.exchange y := by simp [State.exchange]

@[simp] theorem State.updPort_line (s : State) (p : Port) (f : PortRecord → PortRecord) (m : Line) :
    (s.updPort p f).line m = s.line m := by simp [State.line]

/-! ### State.updOcc -/

@[simp] theorem State.updOcc_tasks (s : State) (p : Port) (f : Occupancy → Occupancy) :
    (s.updOcc p f).tasks = s.tasks := by cases p <;> rfl

@[simp] theorem State.updOcc_queues (s : State) (p : Port) (f : Occupancy → Occupancy) :
    (s.updOcc p f).queues = s.queues := by cases p <;> rfl

@[simp] theorem State.updOcc_exchanges (s : State) (p : Port) (f : Occupancy → Occupancy) :
    (s.updOcc p f).exchanges = s.exchanges := by cases p <;> rfl

@[simp] theorem State.updOcc_freeCells (s : State) (p : Port) (f : Occupancy → Occupancy) :
    (s.updOcc p f).freeCells = s.freeCells := by cases p <;> rfl

@[simp] theorem State.updOcc_time (s : State) (p : Port) (f : Occupancy → Occupancy) :
    (s.updOcc p f).time = s.time := by cases p <;> rfl

@[simp] theorem State.updOcc_lines (s : State) (p : Port) (f : Occupancy → Occupancy) :
    (s.updOcc p f).lines = s.lines := by cases p <;> rfl

@[simp] theorem State.updOcc_pool (s : State) (p : Port) (f : Occupancy → Occupancy) :
    (s.updOcc p f).pool = s.pool := by cases p <;> rfl

@[simp] theorem State.updOcc_rst (s : State) (p : Port) (f : Occupancy → Occupancy) :
    (s.updOcc p f).rst = s.rst := by cases p <;> rfl

@[simp] theorem State.updOcc_draws (s : State) (p : Port) (f : Occupancy → Occupancy) :
    (s.updOcc p f).draws = s.draws := by cases p <;> rfl

@[simp] theorem State.updOcc_pending (s : State) (p : Port) (f : Occupancy → Occupancy) :
    (s.updOcc p f).pending = s.pending := by cases p <;> rfl

@[simp] theorem State.updOcc_task (s : State) (p : Port) (f : Occupancy → Occupancy) (u : Slot) :
    (s.updOcc p f).task u = s.task u := by simp [State.task]

@[simp] theorem State.updOcc_queue (s : State) (p : Port) (f : Occupancy → Occupancy) (w : Fin 32) :
    (s.updOcc p f).queue w = s.queue w := by simp [State.queue]

@[simp] theorem State.updOcc_exchange (s : State) (p : Port) (f : Occupancy → Occupancy) (y : Fin 16) :
    (s.updOcc p f).exchange y = s.exchange y := by simp [State.exchange]

@[simp] theorem State.updOcc_line (s : State) (p : Port) (f : Occupancy → Occupancy) (m : Line) :
    (s.updOcc p f).line m = s.line m := by simp [State.line]

/-! ### State.updUnit -/

@[simp] theorem State.updUnit_tasks (s : State) (p : Port) (f : PortUnit → PortUnit) :
    (s.updUnit p f).tasks = s.tasks := by cases p <;> rfl

@[simp] theorem State.updUnit_queues (s : State) (p : Port) (f : PortUnit → PortUnit) :
    (s.updUnit p f).queues = s.queues := by cases p <;> rfl

@[simp] theorem State.updUnit_exchanges (s : State) (p : Port) (f : PortUnit → PortUnit) :
    (s.updUnit p f).exchanges = s.exchanges := by cases p <;> rfl

@[simp] theorem State.updUnit_freeCells (s : State) (p : Port) (f : PortUnit → PortUnit) :
    (s.updUnit p f).freeCells = s.freeCells := by cases p <;> rfl

@[simp] theorem State.updUnit_time (s : State) (p : Port) (f : PortUnit → PortUnit) :
    (s.updUnit p f).time = s.time := by cases p <;> rfl

@[simp] theorem State.updUnit_lines (s : State) (p : Port) (f : PortUnit → PortUnit) :
    (s.updUnit p f).lines = s.lines := by cases p <;> rfl

@[simp] theorem State.updUnit_pool (s : State) (p : Port) (f : PortUnit → PortUnit) :
    (s.updUnit p f).pool = s.pool := by cases p <;> rfl

@[simp] theorem State.updUnit_rst (s : State) (p : Port) (f : PortUnit → PortUnit) :
    (s.updUnit p f).rst = s.rst := by cases p <;> rfl

@[simp] theorem State.updUnit_draws (s : State) (p : Port) (f : PortUnit → PortUnit) :
    (s.updUnit p f).draws = s.draws := by cases p <;> rfl

@[simp] theorem State.updUnit_pending (s : State) (p : Port) (f : PortUnit → PortUnit) :
    (s.updUnit p f).pending = s.pending := by cases p <;> rfl

@[simp] theorem State.updUnit_task (s : State) (p : Port) (f : PortUnit → PortUnit) (u : Slot) :
    (s.updUnit p f).task u = s.task u := by simp [State.task]

@[simp] theorem State.updUnit_queue (s : State) (p : Port) (f : PortUnit → PortUnit) (w : Fin 32) :
    (s.updUnit p f).queue w = s.queue w := by simp [State.queue]

@[simp] theorem State.updUnit_exchange (s : State) (p : Port) (f : PortUnit → PortUnit) (y : Fin 16) :
    (s.updUnit p f).exchange y = s.exchange y := by simp [State.exchange]

@[simp] theorem State.updUnit_line (s : State) (p : Port) (f : PortUnit → PortUnit) (m : Line) :
    (s.updUnit p f).line m = s.line m := by simp [State.line]

/-! ### State.raise -/

@[simp] theorem State.raise_tasks (s : State) (p : Port) (c : Cause) :
    (s.raise p c).tasks = s.tasks := by cases p <;> rfl

@[simp] theorem State.raise_queues (s : State) (p : Port) (c : Cause) :
    (s.raise p c).queues = s.queues := by cases p <;> rfl

@[simp] theorem State.raise_exchanges (s : State) (p : Port) (c : Cause) :
    (s.raise p c).exchanges = s.exchanges := by cases p <;> rfl

@[simp] theorem State.raise_freeCells (s : State) (p : Port) (c : Cause) :
    (s.raise p c).freeCells = s.freeCells := by cases p <;> rfl

@[simp] theorem State.raise_time (s : State) (p : Port) (c : Cause) :
    (s.raise p c).time = s.time := by cases p <;> rfl

@[simp] theorem State.raise_lines (s : State) (p : Port) (c : Cause) :
    (s.raise p c).lines = s.lines := by cases p <;> rfl

@[simp] theorem State.raise_pool (s : State) (p : Port) (c : Cause) :
    (s.raise p c).pool = s.pool := by cases p <;> rfl

@[simp] theorem State.raise_rst (s : State) (p : Port) (c : Cause) : (s.raise p c).rst = s.rst := by cases p <;> rfl

@[simp] theorem State.raise_draws (s : State) (p : Port) (c : Cause) :
    (s.raise p c).draws = s.draws := by cases p <;> rfl

@[simp] theorem State.raise_pending (s : State) (p : Port) (c : Cause) :
    (s.raise p c).pending = s.pending := by cases p <;> rfl

@[simp] theorem State.raise_task (s : State) (p : Port) (c : Cause) (u : Slot) :
    (s.raise p c).task u = s.task u := by simp [State.task]

@[simp] theorem State.raise_queue (s : State) (p : Port) (c : Cause) (w : Fin 32) :
    (s.raise p c).queue w = s.queue w := by simp [State.queue]

@[simp] theorem State.raise_exchange (s : State) (p : Port) (c : Cause) (y : Fin 16) :
    (s.raise p c).exchange y = s.exchange y := by simp [State.exchange]

@[simp] theorem State.raise_line (s : State) (p : Port) (c : Cause) (m : Line) :
    (s.raise p c).line m = s.line m := by simp [State.line]

/-! ### State.setDisposition -/

@[simp] theorem State.setDisposition_tasks (s : State) (p : Port) (d : Disposition) :
    (s.setDisposition p d).tasks = s.tasks := by cases p <;> rfl

@[simp] theorem State.setDisposition_queues (s : State) (p : Port) (d : Disposition) :
    (s.setDisposition p d).queues = s.queues := by cases p <;> rfl

@[simp] theorem State.setDisposition_exchanges (s : State) (p : Port) (d : Disposition) :
    (s.setDisposition p d).exchanges = s.exchanges := by cases p <;> rfl

@[simp] theorem State.setDisposition_freeCells (s : State) (p : Port) (d : Disposition) :
    (s.setDisposition p d).freeCells = s.freeCells := by cases p <;> rfl

@[simp] theorem State.setDisposition_time (s : State) (p : Port) (d : Disposition) :
    (s.setDisposition p d).time = s.time := by cases p <;> rfl

@[simp] theorem State.setDisposition_lines (s : State) (p : Port) (d : Disposition) :
    (s.setDisposition p d).lines = s.lines := by cases p <;> rfl

@[simp] theorem State.setDisposition_pool (s : State) (p : Port) (d : Disposition) :
    (s.setDisposition p d).pool = s.pool := by cases p <;> rfl

@[simp] theorem State.setDisposition_rst (s : State) (p : Port) (d : Disposition) :
    (s.setDisposition p d).rst = s.rst := by cases p <;> rfl

@[simp] theorem State.setDisposition_draws (s : State) (p : Port) (d : Disposition) :
    (s.setDisposition p d).draws = s.draws := by cases p <;> rfl

@[simp] theorem State.setDisposition_pending (s : State) (p : Port) (d : Disposition) :
    (s.setDisposition p d).pending = s.pending := by cases p <;> rfl

@[simp] theorem State.setDisposition_task (s : State) (p : Port) (d : Disposition) (u : Slot) :
    (s.setDisposition p d).task u = s.task u := by simp [State.task]

@[simp] theorem State.setDisposition_queue (s : State) (p : Port) (d : Disposition) (w : Fin 32) :
    (s.setDisposition p d).queue w = s.queue w := by simp [State.queue]

@[simp] theorem State.setDisposition_exchange (s : State) (p : Port) (d : Disposition) (y : Fin 16) :
    (s.setDisposition p d).exchange y = s.exchange y := by simp [State.exchange]

@[simp] theorem State.setDisposition_line (s : State) (p : Port) (d : Disposition) (m : Line) :
    (s.setDisposition p d).line m = s.line m := by simp [State.line]

/-! ### State.updQueue -/

@[simp] theorem State.updQueue_tasks (s : State) (v : Fin 32) (f : List Slot → List Slot) :
    (s.updQueue v f).tasks = s.tasks := rfl

@[simp] theorem State.updQueue_portA (s : State) (v : Fin 32) (f : List Slot → List Slot) :
    (s.updQueue v f).portA = s.portA := rfl

@[simp] theorem State.updQueue_portB (s : State) (v : Fin 32) (f : List Slot → List Slot) :
    (s.updQueue v f).portB = s.portB := rfl

@[simp] theorem State.updQueue_exchanges (s : State) (v : Fin 32) (f : List Slot → List Slot) :
    (s.updQueue v f).exchanges = s.exchanges := rfl

@[simp] theorem State.updQueue_freeCells (s : State) (v : Fin 32) (f : List Slot → List Slot) :
    (s.updQueue v f).freeCells = s.freeCells := rfl

@[simp] theorem State.updQueue_time (s : State) (v : Fin 32) (f : List Slot → List Slot) :
    (s.updQueue v f).time = s.time := rfl

@[simp] theorem State.updQueue_lines (s : State) (v : Fin 32) (f : List Slot → List Slot) :
    (s.updQueue v f).lines = s.lines := rfl

@[simp] theorem State.updQueue_pool (s : State) (v : Fin 32) (f : List Slot → List Slot) :
    (s.updQueue v f).pool = s.pool := rfl

@[simp] theorem State.updQueue_rst (s : State) (v : Fin 32) (f : List Slot → List Slot) :
    (s.updQueue v f).rst = s.rst := rfl

@[simp] theorem State.updQueue_draws (s : State) (v : Fin 32) (f : List Slot → List Slot) :
    (s.updQueue v f).draws = s.draws := rfl

@[simp] theorem State.updQueue_pending (s : State) (v : Fin 32) (f : List Slot → List Slot) :
    (s.updQueue v f).pending = s.pending := rfl

@[simp] theorem State.updQueue_task (s : State) (v : Fin 32) (f : List Slot → List Slot) (u : Slot) :
    (s.updQueue v f).task u = s.task u := rfl

@[simp] theorem State.updQueue_port (s : State) (v : Fin 32) (f : List Slot → List Slot) (q : Port) :
    (s.updQueue v f).port q = s.port q := by cases q <;> rfl

@[simp] theorem State.updQueue_exchange (s : State) (v : Fin 32) (f : List Slot → List Slot) (y : Fin 16) :
    (s.updQueue v f).exchange y = s.exchange y := rfl

@[simp] theorem State.updQueue_line (s : State) (v : Fin 32) (f : List Slot → List Slot) (m : Line) :
    (s.updQueue v f).line m = s.line m := rfl

/-! ### State.setExchange -/

@[simp] theorem State.setExchange_tasks (s : State) (x : Fin 16) (e : ExchangeState) :
    (s.setExchange x e).tasks = s.tasks := rfl

@[simp] theorem State.setExchange_queues (s : State) (x : Fin 16) (e : ExchangeState) :
    (s.setExchange x e).queues = s.queues := rfl

@[simp] theorem State.setExchange_portA (s : State) (x : Fin 16) (e : ExchangeState) :
    (s.setExchange x e).portA = s.portA := rfl

@[simp] theorem State.setExchange_portB (s : State) (x : Fin 16) (e : ExchangeState) :
    (s.setExchange x e).portB = s.portB := rfl

@[simp] theorem State.setExchange_freeCells (s : State) (x : Fin 16) (e : ExchangeState) :
    (s.setExchange x e).freeCells = s.freeCells := rfl

@[simp] theorem State.setExchange_time (s : State) (x : Fin 16) (e : ExchangeState) :
    (s.setExchange x e).time = s.time := rfl

@[simp] theorem State.setExchange_lines (s : State) (x : Fin 16) (e : ExchangeState) :
    (s.setExchange x e).lines = s.lines := rfl

@[simp] theorem State.setExchange_pool (s : State) (x : Fin 16) (e : ExchangeState) :
    (s.setExchange x e).pool = s.pool := rfl

@[simp] theorem State.setExchange_rst (s : State) (x : Fin 16) (e : ExchangeState) :
    (s.setExchange x e).rst = s.rst := rfl

@[simp] theorem State.setExchange_draws (s : State) (x : Fin 16) (e : ExchangeState) :
    (s.setExchange x e).draws = s.draws := rfl

@[simp] theorem State.setExchange_pending (s : State) (x : Fin 16) (e : ExchangeState) :
    (s.setExchange x e).pending = s.pending := rfl

@[simp] theorem State.setExchange_task (s : State) (x : Fin 16) (e : ExchangeState) (u : Slot) :
    (s.setExchange x e).task u = s.task u := rfl

@[simp] theorem State.setExchange_queue (s : State) (x : Fin 16) (e : ExchangeState) (w : Fin 32) :
    (s.setExchange x e).queue w = s.queue w := rfl

@[simp] theorem State.setExchange_port (s : State) (x : Fin 16) (e : ExchangeState) (q : Port) :
    (s.setExchange x e).port q = s.port q := by cases q <;> rfl

@[simp] theorem State.setExchange_line (s : State) (x : Fin 16) (e : ExchangeState) (m : Line) :
    (s.setExchange x e).line m = s.line m := rfl

/-! ### State.updMailbox -/

@[simp] theorem State.updMailbox_tasks (s : State) (x : Fin 16) (f : Mailbox → Mailbox) :
    (s.updMailbox x f).tasks = s.tasks := by unfold State.updMailbox; split <;> rfl

@[simp] theorem State.updMailbox_queues (s : State) (x : Fin 16) (f : Mailbox → Mailbox) :
    (s.updMailbox x f).queues = s.queues := by unfold State.updMailbox; split <;> rfl

@[simp] theorem State.updMailbox_portA (s : State) (x : Fin 16) (f : Mailbox → Mailbox) :
    (s.updMailbox x f).portA = s.portA := by unfold State.updMailbox; split <;> rfl

@[simp] theorem State.updMailbox_portB (s : State) (x : Fin 16) (f : Mailbox → Mailbox) :
    (s.updMailbox x f).portB = s.portB := by unfold State.updMailbox; split <;> rfl

@[simp] theorem State.updMailbox_freeCells (s : State) (x : Fin 16) (f : Mailbox → Mailbox) :
    (s.updMailbox x f).freeCells = s.freeCells := by unfold State.updMailbox; split <;> rfl

@[simp] theorem State.updMailbox_time (s : State) (x : Fin 16) (f : Mailbox → Mailbox) :
    (s.updMailbox x f).time = s.time := by unfold State.updMailbox; split <;> rfl

@[simp] theorem State.updMailbox_lines (s : State) (x : Fin 16) (f : Mailbox → Mailbox) :
    (s.updMailbox x f).lines = s.lines := by unfold State.updMailbox; split <;> rfl

@[simp] theorem State.updMailbox_pool (s : State) (x : Fin 16) (f : Mailbox → Mailbox) :
    (s.updMailbox x f).pool = s.pool := by unfold State.updMailbox; split <;> rfl

@[simp] theorem State.updMailbox_rst (s : State) (x : Fin 16) (f : Mailbox → Mailbox) :
    (s.updMailbox x f).rst = s.rst := by unfold State.updMailbox; split <;> rfl

@[simp] theorem State.updMailbox_draws (s : State) (x : Fin 16) (f : Mailbox → Mailbox) :
    (s.updMailbox x f).draws = s.draws := by unfold State.updMailbox; split <;> rfl

@[simp] theorem State.updMailbox_pending (s : State) (x : Fin 16) (f : Mailbox → Mailbox) :
    (s.updMailbox x f).pending = s.pending := by unfold State.updMailbox; split <;> rfl

@[simp] theorem State.updMailbox_task (s : State) (x : Fin 16) (f : Mailbox → Mailbox) (u : Slot) :
    (s.updMailbox x f).task u = s.task u := by simp [State.task]

@[simp] theorem State.updMailbox_queue (s : State) (x : Fin 16) (f : Mailbox → Mailbox) (w : Fin 32) :
    (s.updMailbox x f).queue w = s.queue w := by simp [State.queue]

@[simp] theorem State.updMailbox_port (s : State) (x : Fin 16) (f : Mailbox → Mailbox) (q : Port) :
    (s.updMailbox x f).port q = s.port q := by cases q <;> simp [State.port]

@[simp] theorem State.updMailbox_line (s : State) (x : Fin 16) (f : Mailbox → Mailbox) (m : Line) :
    (s.updMailbox x f).line m = s.line m := by simp [State.line]

/-! ### State.updCounter -/

@[simp] theorem State.updCounter_tasks (s : State) (x : Fin 16) (f : Counter → Counter) :
    (s.updCounter x f).tasks = s.tasks := by unfold State.updCounter; split <;> rfl

@[simp] theorem State.updCounter_queues (s : State) (x : Fin 16) (f : Counter → Counter) :
    (s.updCounter x f).queues = s.queues := by unfold State.updCounter; split <;> rfl

@[simp] theorem State.updCounter_portA (s : State) (x : Fin 16) (f : Counter → Counter) :
    (s.updCounter x f).portA = s.portA := by unfold State.updCounter; split <;> rfl

@[simp] theorem State.updCounter_portB (s : State) (x : Fin 16) (f : Counter → Counter) :
    (s.updCounter x f).portB = s.portB := by unfold State.updCounter; split <;> rfl

@[simp] theorem State.updCounter_freeCells (s : State) (x : Fin 16) (f : Counter → Counter) :
    (s.updCounter x f).freeCells = s.freeCells := by unfold State.updCounter; split <;> rfl

@[simp] theorem State.updCounter_time (s : State) (x : Fin 16) (f : Counter → Counter) :
    (s.updCounter x f).time = s.time := by unfold State.updCounter; split <;> rfl

@[simp] theorem State.updCounter_lines (s : State) (x : Fin 16) (f : Counter → Counter) :
    (s.updCounter x f).lines = s.lines := by unfold State.updCounter; split <;> rfl

@[simp] theorem State.updCounter_pool (s : State) (x : Fin 16) (f : Counter → Counter) :
    (s.updCounter x f).pool = s.pool := by unfold State.updCounter; split <;> rfl

@[simp] theorem State.updCounter_rst (s : State) (x : Fin 16) (f : Counter → Counter) :
    (s.updCounter x f).rst = s.rst := by unfold State.updCounter; split <;> rfl

@[simp] theorem State.updCounter_draws (s : State) (x : Fin 16) (f : Counter → Counter) :
    (s.updCounter x f).draws = s.draws := by unfold State.updCounter; split <;> rfl

@[simp] theorem State.updCounter_pending (s : State) (x : Fin 16) (f : Counter → Counter) :
    (s.updCounter x f).pending = s.pending := by unfold State.updCounter; split <;> rfl

@[simp] theorem State.updCounter_task (s : State) (x : Fin 16) (f : Counter → Counter) (u : Slot) :
    (s.updCounter x f).task u = s.task u := by simp [State.task]

@[simp] theorem State.updCounter_queue (s : State) (x : Fin 16) (f : Counter → Counter) (w : Fin 32) :
    (s.updCounter x f).queue w = s.queue w := by simp [State.queue]

@[simp] theorem State.updCounter_port (s : State) (x : Fin 16) (f : Counter → Counter) (q : Port) :
    (s.updCounter x f).port q = s.port q := by cases q <;> simp [State.port]

@[simp] theorem State.updCounter_line (s : State) (x : Fin 16) (f : Counter → Counter) (m : Line) :
    (s.updCounter x f).line m = s.line m := by simp [State.line]

/-! ### State.updLine -/

@[simp] theorem State.updLine_tasks (s : State) (l : Line) (f : LineRecord → LineRecord) :
    (s.updLine l f).tasks = s.tasks := rfl

@[simp] theorem State.updLine_queues (s : State) (l : Line) (f : LineRecord → LineRecord) :
    (s.updLine l f).queues = s.queues := rfl

@[simp] theorem State.updLine_portA (s : State) (l : Line) (f : LineRecord → LineRecord) :
    (s.updLine l f).portA = s.portA := rfl

@[simp] theorem State.updLine_portB (s : State) (l : Line) (f : LineRecord → LineRecord) :
    (s.updLine l f).portB = s.portB := rfl

@[simp] theorem State.updLine_exchanges (s : State) (l : Line) (f : LineRecord → LineRecord) :
    (s.updLine l f).exchanges = s.exchanges := rfl

@[simp] theorem State.updLine_freeCells (s : State) (l : Line) (f : LineRecord → LineRecord) :
    (s.updLine l f).freeCells = s.freeCells := rfl

@[simp] theorem State.updLine_time (s : State) (l : Line) (f : LineRecord → LineRecord) :
    (s.updLine l f).time = s.time := rfl

@[simp] theorem State.updLine_pool (s : State) (l : Line) (f : LineRecord → LineRecord) :
    (s.updLine l f).pool = s.pool := rfl

@[simp] theorem State.updLine_rst (s : State) (l : Line) (f : LineRecord → LineRecord) :
    (s.updLine l f).rst = s.rst := rfl

@[simp] theorem State.updLine_draws (s : State) (l : Line) (f : LineRecord → LineRecord) :
    (s.updLine l f).draws = s.draws := rfl

@[simp] theorem State.updLine_pending (s : State) (l : Line) (f : LineRecord → LineRecord) :
    (s.updLine l f).pending = s.pending := rfl

@[simp] theorem State.updLine_task (s : State) (l : Line) (f : LineRecord → LineRecord) (u : Slot) :
    (s.updLine l f).task u = s.task u := rfl

@[simp] theorem State.updLine_queue (s : State) (l : Line) (f : LineRecord → LineRecord) (w : Fin 32) :
    (s.updLine l f).queue w = s.queue w := rfl

@[simp] theorem State.updLine_port (s : State) (l : Line) (f : LineRecord → LineRecord) (q : Port) :
    (s.updLine l f).port q = s.port q := by cases q <;> rfl

@[simp] theorem State.updLine_exchange (s : State) (l : Line) (f : LineRecord → LineRecord) (y : Fin 16) :
    (s.updLine l f).exchange y = s.exchange y := rfl

/-! ### State.updPool -/

@[simp] theorem State.updPool_tasks (s : State) (f : PagePool → PagePool) : (s.updPool f).tasks = s.tasks := rfl

@[simp] theorem State.updPool_queues (s : State) (f : PagePool → PagePool) : (s.updPool f).queues = s.queues := rfl

@[simp] theorem State.updPool_portA (s : State) (f : PagePool → PagePool) : (s.updPool f).portA = s.portA := rfl

@[simp] theorem State.updPool_portB (s : State) (f : PagePool → PagePool) : (s.updPool f).portB = s.portB := rfl

@[simp] theorem State.updPool_exchanges (s : State) (f : PagePool → PagePool) :
    (s.updPool f).exchanges = s.exchanges := rfl

@[simp] theorem State.updPool_freeCells (s : State) (f : PagePool → PagePool) :
    (s.updPool f).freeCells = s.freeCells := rfl

@[simp] theorem State.updPool_time (s : State) (f : PagePool → PagePool) : (s.updPool f).time = s.time := rfl

@[simp] theorem State.updPool_lines (s : State) (f : PagePool → PagePool) : (s.updPool f).lines = s.lines := rfl

@[simp] theorem State.updPool_rst (s : State) (f : PagePool → PagePool) : (s.updPool f).rst = s.rst := rfl

@[simp] theorem State.updPool_draws (s : State) (f : PagePool → PagePool) : (s.updPool f).draws = s.draws := rfl

@[simp] theorem State.updPool_pending (s : State) (f : PagePool → PagePool) : (s.updPool f).pending = s.pending := rfl

@[simp] theorem State.updPool_task (s : State) (f : PagePool → PagePool) (u : Slot) :
    (s.updPool f).task u = s.task u := rfl

@[simp] theorem State.updPool_queue (s : State) (f : PagePool → PagePool) (w : Fin 32) :
    (s.updPool f).queue w = s.queue w := rfl

@[simp] theorem State.updPool_port (s : State) (f : PagePool → PagePool) (q : Port) :
    (s.updPool f).port q = s.port q := by cases q <;> rfl

@[simp] theorem State.updPool_exchange (s : State) (f : PagePool → PagePool) (y : Fin 16) :
    (s.updPool f).exchange y = s.exchange y := rfl

@[simp] theorem State.updPool_line (s : State) (f : PagePool → PagePool) (m : Line) :
    (s.updPool f).line m = s.line m := rfl

/-! ### insertTimer -/

@[simp] theorem insertTimer_tasks (s : State) (t : Slot) (d : Option TickCount) :
    (insertTimer t d s).tasks = s.tasks := by cases d <;> rfl

@[simp] theorem insertTimer_queues (s : State) (t : Slot) (d : Option TickCount) :
    (insertTimer t d s).queues = s.queues := by cases d <;> rfl

@[simp] theorem insertTimer_portA (s : State) (t : Slot) (d : Option TickCount) :
    (insertTimer t d s).portA = s.portA := by cases d <;> rfl

@[simp] theorem insertTimer_portB (s : State) (t : Slot) (d : Option TickCount) :
    (insertTimer t d s).portB = s.portB := by cases d <;> rfl

@[simp] theorem insertTimer_exchanges (s : State) (t : Slot) (d : Option TickCount) :
    (insertTimer t d s).exchanges = s.exchanges := by cases d <;> rfl

@[simp] theorem insertTimer_freeCells (s : State) (t : Slot) (d : Option TickCount) :
    (insertTimer t d s).freeCells = s.freeCells := by cases d <;> rfl

@[simp] theorem insertTimer_lines (s : State) (t : Slot) (d : Option TickCount) :
    (insertTimer t d s).lines = s.lines := by cases d <;> rfl

@[simp] theorem insertTimer_pool (s : State) (t : Slot) (d : Option TickCount) :
    (insertTimer t d s).pool = s.pool := by cases d <;> rfl

@[simp] theorem insertTimer_rst (s : State) (t : Slot) (d : Option TickCount) :
    (insertTimer t d s).rst = s.rst := by cases d <;> rfl

@[simp] theorem insertTimer_draws (s : State) (t : Slot) (d : Option TickCount) :
    (insertTimer t d s).draws = s.draws := by cases d <;> rfl

@[simp] theorem insertTimer_pending (s : State) (t : Slot) (d : Option TickCount) :
    (insertTimer t d s).pending = s.pending := by cases d <;> rfl

@[simp] theorem insertTimer_task (s : State) (t : Slot) (d : Option TickCount) (u : Slot) :
    (insertTimer t d s).task u = s.task u := by simp [State.task]

@[simp] theorem insertTimer_queue (s : State) (t : Slot) (d : Option TickCount) (w : Fin 32) :
    (insertTimer t d s).queue w = s.queue w := by simp [State.queue]

@[simp] theorem insertTimer_port (s : State) (t : Slot) (d : Option TickCount) (q : Port) :
    (insertTimer t d s).port q = s.port q := by cases q <;> simp [State.port]

@[simp] theorem insertTimer_exchange (s : State) (t : Slot) (d : Option TickCount) (y : Fin 16) :
    (insertTimer t d s).exchange y = s.exchange y := by simp [State.exchange]

@[simp] theorem insertTimer_line (s : State) (t : Slot) (d : Option TickCount) (m : Line) :
    (insertTimer t d s).line m = s.line m := by simp [State.line]

/-! ### removeTimer -/

@[simp] theorem removeTimer_tasks (s : State) (t : Slot) : (removeTimer t s).tasks = s.tasks := rfl

@[simp] theorem removeTimer_queues (s : State) (t : Slot) : (removeTimer t s).queues = s.queues := rfl

@[simp] theorem removeTimer_portA (s : State) (t : Slot) : (removeTimer t s).portA = s.portA := rfl

@[simp] theorem removeTimer_portB (s : State) (t : Slot) : (removeTimer t s).portB = s.portB := rfl

@[simp] theorem removeTimer_exchanges (s : State) (t : Slot) : (removeTimer t s).exchanges = s.exchanges := rfl

@[simp] theorem removeTimer_freeCells (s : State) (t : Slot) : (removeTimer t s).freeCells = s.freeCells := rfl

@[simp] theorem removeTimer_lines (s : State) (t : Slot) : (removeTimer t s).lines = s.lines := rfl

@[simp] theorem removeTimer_pool (s : State) (t : Slot) : (removeTimer t s).pool = s.pool := rfl

@[simp] theorem removeTimer_rst (s : State) (t : Slot) : (removeTimer t s).rst = s.rst := rfl

@[simp] theorem removeTimer_draws (s : State) (t : Slot) : (removeTimer t s).draws = s.draws := rfl

@[simp] theorem removeTimer_pending (s : State) (t : Slot) : (removeTimer t s).pending = s.pending := rfl

@[simp] theorem removeTimer_task (s : State) (t : Slot) (u : Slot) :
    (removeTimer t s).task u = s.task u := rfl

@[simp] theorem removeTimer_queue (s : State) (t : Slot) (w : Fin 32) :
    (removeTimer t s).queue w = s.queue w := rfl

@[simp] theorem removeTimer_port (s : State) (t : Slot) (q : Port) :
    (removeTimer t s).port q = s.port q := by cases q <;> rfl

@[simp] theorem removeTimer_exchange (s : State) (t : Slot) (y : Fin 16) :
    (removeTimer t s).exchange y = s.exchange y := rfl

@[simp] theorem removeTimer_line (s : State) (t : Slot) (m : Line) :
    (removeTimer t s).line m = s.line m := rfl

/-! ### What an update writes -/

theorem State.updTask_task (s : State) (t u : Slot) (f : TaskRecord → TaskRecord) :
    (s.updTask t f).task u = if t = u then f (s.task t) else s.task u := by
  simp only [State.updTask, State.task, Fin.getElem_fin, Vector.getElem_set, Fin.ext_iff]

@[simp] theorem State.updTask_task_self (s : State) (t : Slot) (f : TaskRecord → TaskRecord) :
    (s.updTask t f).task t = f (s.task t) := by
  simp [State.updTask_task]

theorem State.updTask_task_ne (s : State) {t u : Slot} (f : TaskRecord → TaskRecord) (h : t ≠ u) :
    (s.updTask t f).task u = s.task u := by
  simp [State.updTask_task, h]

theorem State.setTaskState_task (s : State) (t u : Slot) (st : TaskState) :
    (s.setTaskState t st).task u = if t = u then { s.task t with state := st } else s.task u := by
  simp [State.setTaskState, State.updTask_task]

theorem State.updPort_port (s : State) (p q : Port) (f : PortRecord → PortRecord) :
    (s.updPort p f).port q = if p = q then f (s.port p) else s.port q := by
  cases p <;> cases q <;> rfl

@[simp] theorem State.updPort_port_self (s : State) (p : Port) (f : PortRecord → PortRecord) :
    (s.updPort p f).port p = f (s.port p) := by
  cases p <;> rfl

@[simp] theorem State.updPort_port_other (s : State) (p : Port) (f : PortRecord → PortRecord) :
    (s.updPort p f).port (otherPort p) = s.port (otherPort p) := by
  cases p <;> rfl

theorem State.updOcc_port (s : State) (p q : Port) (f : Occupancy → Occupancy) :
    (s.updOcc p f).port q = if p = q then { s.port p with occ := f (s.port p).occ } else s.port q :=
  s.updPort_port p q _

theorem State.updUnit_port (s : State) (p q : Port) (f : PortUnit → PortUnit) :
    (s.updUnit p f).port q = if p = q then { s.port p with unit := f (s.port p).unit } else s.port q :=
  s.updPort_port p q _

theorem State.raise_port (s : State) (p q : Port) (c : Cause) :
    (s.raise p c).port q = if p = q then (s.port p).raise c else s.port q :=
  s.updPort_port p q _

theorem State.setDisposition_port (s : State) (p q : Port) (d : Disposition) :
    (s.setDisposition p d).port q =
      if p = q then { s.port p with occ := { (s.port p).occ with disposition := some d } } else s.port q :=
  s.updPort_port p q _

theorem State.updQueue_queue (s : State) (v w : Fin 32) (f : List Slot → List Slot) :
    (s.updQueue v f).queue w = if v = w then f (s.queue v) else s.queue w := by
  simp only [State.updQueue, State.queue, Fin.getElem_fin, Vector.getElem_set, Fin.ext_iff]

theorem State.setExchange_exchange (s : State) (x y : Fin 16) (e : ExchangeState) :
    (s.setExchange x e).exchange y = if x = y then { s.exchange x with state := e } else s.exchange y := by
  simp only [State.setExchange, State.exchange, Fin.getElem_fin, Vector.getElem_set, Fin.ext_iff]

theorem State.updLine_line (s : State) (l m : Line) (f : LineRecord → LineRecord) :
    (s.updLine l f).line m = if l = m then f (s.line l) else s.line m := by
  simp only [State.updLine, State.line, Fin.getElem_fin, Vector.getElem_set, Fin.ext_iff]

@[simp] theorem State.updPool_pool (s : State) (f : PagePool → PagePool) : (s.updPool f).pool = f s.pool := rfl

@[simp] theorem removeTimer_timers (s : State) (t : Slot) :
    (removeTimer t s).time = { s.time with timers := s.time.timers.filter (·.task != t) } := rfl

/-! ### A port on which a cause is raised -/

@[simp] theorem PortRecord.raise_lifecycle (r : PortRecord) (c : Cause) : (r.raise c).lifecycle = r.lifecycle := by
  unfold PortRecord.raise; split <;> rfl

@[simp] theorem PortRecord.raise_prst (r : PortRecord) (c : Cause) : (r.raise c).prst = r.prst := by
  unfold PortRecord.raise; split <;> rfl

@[simp] theorem PortRecord.raise_occ (r : PortRecord) (c : Cause) : (r.raise c).occ = r.occ := by
  unfold PortRecord.raise; split <;> rfl

theorem PortRecord.raise_unit (r : PortRecord) (c : Cause) :
    (r.raise c).unit = if r.prst then r.unit else { r.unit with intp := r.unit.intp ||| c.mask } := by
  unfold PortRecord.raise; split <;> rfl

end Sys2Proof.Machine
end

