-- ==== Sys2Proof/Laws/Dispatcher.lean ====
section
/-! SUPPORT. What the Dispatcher's operations can do: a frame that says which fields they leave, proved once for posting,
placement with its cascade, re-decision and the slice. -/

namespace Sys2Proof.Machine

/-! ### The frame of one port -/

/-- What the Dispatcher leaves of a port: everything but the offer, the disposition and the sequence counter, and of the
interrupt causes everything but OFFER, which becomes pending. A DISABLED idle port is not touched. -/
structure PortFrame (r r' : PortRecord) : Prop where
  lifecycle : r'.lifecycle = r.lifecycle
  prst : r'.prst = r.prst
  occupant : r'.occ.occupant = r.occ.occupant
  acceptStatus : r'.occ.acceptStatus = r.occ.acceptStatus
  unit : r'.unit = { r.unit with intp := r'.unit.intp }
  intp : r'.unit.intp = r.unit.intp ∨ (r.prst = false ∧ r'.unit.intp = r.unit.intp ||| Cause.offer.mask)
  idle : r.lifecycle = .disabled → r.occ.occupant = none → r' = r
  sequence : r.occ.SequenceFits → r'.occ.SequenceFits

theorem PortFrame.refl (r : PortRecord) : PortFrame r r :=
  ⟨rfl, rfl, rfl, rfl, rfl, .inl rfl, fun _ _ => rfl, id⟩

theorem PortFrame.trans {a b c : PortRecord} (h : PortFrame a b) (k : PortFrame b c) : PortFrame a c where
  lifecycle := k.lifecycle.trans h.lifecycle
  prst := k.prst.trans h.prst
  occupant := k.occupant.trans h.occupant
  acceptStatus := k.acceptStatus.trans h.acceptStatus
  unit := by rw [k.unit, h.unit]
  intp := by
    rcases h.intp with e | ⟨p, e⟩ <;> rcases k.intp with f | ⟨q, f⟩
    · exact .inl (f.trans e)
    · exact .inr ⟨h.prst ▸ q, by rw [f, e]⟩
    · exact .inr ⟨p, by rw [f, e]⟩
    · exact .inr ⟨p, by rw [f, e, BitVec.or_assoc, BitVec.or_self]⟩
  idle := fun d o => (k.idle (h.lifecycle.trans d) (h.occupant.trans o)).trans (h.idle d o)
  sequence := fun f => k.sequence (h.sequence f)

/-! ### The frame of the state -/

/-- What the Dispatcher leaves of the state: of every task everything but its state, which can only become READY or
SELECTED; every port as PortFrame says; and every record of every other block. -/
structure DispatchFrame (s s' : State) : Prop where
  task : ∀ t, s'.task t = { s.task t with state := (s'.task t).state }
  state : ∀ t, (s'.task t).state = (s.task t).state ∨ (s'.task t).state = .ready ∨ (s'.task t).state = .selected
  port : ∀ p, PortFrame (s.port p) (s'.port p)
  exchanges : s'.exchanges = s.exchanges
  freeCells : s'.freeCells = s.freeCells
  time : s'.time = s.time
  lines : s'.lines = s.lines
  pool : s'.pool = s.pool
  rst : s'.rst = s.rst
  draws : s'.draws = s.draws
  pending : s'.pending = s.pending

theorem DispatchFrame.refl (s : State) : DispatchFrame s s :=
  ⟨fun _ => rfl, fun _ => .inl rfl, fun _ => .refl _, rfl, rfl, rfl, rfl, rfl, rfl, rfl, rfl⟩

theorem DispatchFrame.trans {a b c : State} (h : DispatchFrame a b) (k : DispatchFrame b c) : DispatchFrame a c where
  task t := by rw [k.task t, h.task t]
  state t := by
    rcases k.state t with e | e
    · rw [e]; exact h.state t
    · exact .inr e
  port p := (h.port p).trans (k.port p)
  exchanges := k.exchanges.trans h.exchanges
  freeCells := k.freeCells.trans h.freeCells
  time := k.time.trans h.time
  lines := k.lines.trans h.lines
  pool := k.pool.trans h.pool
  rst := k.rst.trans h.rst
  draws := k.draws.trans h.draws
  pending := k.pending.trans h.pending

/-! ### The small updates -/

/-- A change of one port that keeps its frame keeps the state's. -/
theorem DispatchFrame.of_updPort {s : State} {p : Port} {f : PortRecord → PortRecord}
    (h : PortFrame (s.port p) (f (s.port p))) : DispatchFrame s (s.updPort p f) where
  task t := by simp
  state t := by simp
  port q := by
    rw [State.updPort_port]
    split
    · subst_vars; exact h
    · exact .refl _
  exchanges := by simp
  freeCells := by simp
  time := by simp
  lines := by simp
  pool := by simp
  rst := by simp
  draws := by simp
  pending := by simp

theorem raise_offer_frame (s : State) (p : Port) (h : (s.port p).isEnabled = true) :
    DispatchFrame s (s.raise p .offer) := by
  apply DispatchFrame.of_updPort
  have e : (s.port p).lifecycle = .enabled := by simpa [PortRecord.isEnabled] using h
  refine ⟨by simp, by simp, by simp, by simp, ?_, ?_, fun d => ?_, by simp⟩
  · rw [PortRecord.raise_unit]; split <;> rfl
  · rw [PortRecord.raise_unit]
    split
    · exact .inl rfl
    · next k => exact .inr ⟨by simpa using k, rfl⟩
  · rw [e] at d; cases d

/-- A disposition is given on a port that has an occupant or is ENABLED. -/
theorem setDisposition_frame (s : State) (p : Port) (d : Disposition)
    (h : (s.port p).occ.occupant ≠ none ∨ (s.port p).isEnabled = true) :
    DispatchFrame s (s.setDisposition p d) := by
  refine DispatchFrame.of_updPort (f := fun r => { r with occ := { r.occ with disposition := some d } })
    ⟨rfl, rfl, rfl, rfl, rfl, .inl rfl, fun e o => ?_, fun k => k⟩
  rcases h with h | h
  · exact absurd o h
  · simp [PortRecord.isEnabled, e] at h

theorem updQueue_frame (s : State) (v : Fin 32) (f : List Slot → List Slot) : DispatchFrame s (s.updQueue v f) :=
  ⟨fun _ => rfl, fun _ => .inl rfl, fun q => by cases q <;> exact .refl _, rfl, rfl, rfl, rfl, rfl, rfl, rfl, rfl⟩

theorem setTaskState_frame (s : State) (t : Slot) (st : TaskState) (h : st = .ready ∨ st = .selected) :
    DispatchFrame s (s.setTaskState t st) where
  task u := by rw [State.setTaskState_task]; split <;> simp_all
  state u := by rw [State.setTaskState_task]; split <;> simp_all
  port q := by cases q <;> exact .refl _
  exchanges := rfl
  freeCells := rfl
  time := rfl
  lines := rfl
  pool := rfl
  rst := rfl
  draws := rfl
  pending := rfl

theorem unqueue_frame (t : Slot) (s : State) : DispatchFrame s (unqueue t s) := updQueue_frame ..

theorem enterTail_frame (t : Slot) (s : State) : DispatchFrame s (enterTail t s) :=
  (updQueue_frame ..).trans (setTaskState_frame _ _ _ (.inl rfl))

theorem enterHead_frame (t : Slot) (s : State) : DispatchFrame s (enterHead t s) :=
  (updQueue_frame ..).trans (setTaskState_frame _ _ _ (.inl rfl))

/-! ### Posting and revision -/

theorem writeOffer_frame (p : Port) (k : OfferKind) (y : Option Slot) (s : State)
    (h : (s.port p).isEnabled = true) : DispatchFrame s (writeOffer p k y s) := by
  have e : (s.port p).lifecycle = .enabled := by simpa [PortRecord.isEnabled] using h
  unfold writeOffer
  refine DispatchFrame.trans (b := s.updOcc p _) ?_ (raise_offer_frame _ _ ?_)
  · refine DispatchFrame.of_updPort ⟨rfl, rfl, rfl, rfl, rfl, .inl rfl, fun d => ?_, fun _ f hf => ?_⟩
    · rw [e] at d; cases d
    · simp only [Option.some.injEq] at hf; subst hf; rfl
  · rw [State.updOcc_port, if_pos rfl]; exact h

/-- ENABLED is a matter of the lifecycle state, which a frame keeps. -/
theorem DispatchFrame.isEnabled {s s' : State} (h : DispatchFrame s s') (p : Port) :
    (s'.port p).isEnabled = (s.port p).isEnabled := by
  simp [PortRecord.isEnabled, (h.port p).lifecycle]

theorem offerTask_frame (p : Port) (t : Slot) (s : State) (h : (s.port p).isEnabled = true) :
    DispatchFrame s (offerTask p t s) := by
  have k := (unqueue_frame t s).trans (setTaskState_frame _ t .selected (.inr rfl))
  exact k.trans (writeOffer_frame _ _ _ _ (by rw [k.isEnabled]; exact h))

theorem offerNext_frame (p : Port) (y : Option Slot) (s : State) (h : (s.port p).isEnabled = true) :
    DispatchFrame s (offerNext p y s) := by
  cases y
  · exact writeOffer_frame _ _ _ _ h
  · exact offerTask_frame _ _ _ h

/-! ### Placement -/

/-- A chosen port is ENABLED: it is a candidate (R28, R33). -/
theorem choosePort_enabled {s : State} {t : Slot} {p : Port} (h : s.choosePort t = some p) :
    (s.port p).isEnabled = true := by
  have c : s.isCandidate t p = true := by
    unfold State.choosePort at h
    split at h
    · cases h
    · cases h; assumption
    · cases h; assumption
    · split at h <;> (cases h; assumption)
  simp only [State.isCandidate, State.eligible, Bool.and_eq_true] at c
  exact c.1.2

theorem takePort_frame (p : Port) (t : Slot) (s : State) (h : (s.port p).isEnabled = true) :
    DispatchFrame s (takePort p t s) := by
  simp only [takePort]
  generalize ((s.port p).occ.occupant.isSome && _) = preempts
  cases preempts
  · exact offerTask_frame _ _ _ h
  · have k := setDisposition_frame s p .readyHead (.inr h)
    exact k.trans (offerTask_frame _ _ _ (by rw [k.isEnabled]; exact h))

theorem placeRounds_frame (n : Nat) : ∀ (t : Slot) (s : State), DispatchFrame s (placeRounds n t s) := by
  induction n with
  | zero => intro t s; exact .refl s
  | succ n ih =>
    intro t s
    unfold placeRounds
    split
    · exact .refl s
    · have k := takePort_frame _ t s (choosePort_enabled ‹_›)
      split
      · exact k
      · exact (k.trans (enterHead_frame _ _)).trans (ih _ _)

theorem place_frame (t : Slot) (s : State) : DispatchFrame s (place t s) := placeRounds_frame 32 t s

theorem readyTail_frame (t : Slot) (s : State) : DispatchFrame s (readyTail t s) :=
  (enterTail_frame t s).trans (place_frame _ _)

theorem readyHead_frame (t : Slot) (s : State) : DispatchFrame s (readyHead t s) :=
  (enterHead_frame t s).trans (place_frame _ _)

theorem displace_frame (y : Option Slot) (s : State) : DispatchFrame s (displace y s) := by
  cases y
  · exact .refl s
  · exact readyHead_frame _ _

/-! ### Re-decision -/

theorem losePort_frame (p : Port) (s : State) : DispatchFrame s (losePort p s) := by
  unfold losePort
  split
  · exact setDisposition_frame _ _ _ (.inl (by simp_all))
  · exact setDisposition_frame _ _ _ (.inl (by simp_all))
  · exact .refl s

theorem continueOccupant_frame (p : Port) (s : State) (h : (s.port p).isEnabled = true) :
    DispatchFrame s (continueOccupant p s) := by
  unfold continueOccupant
  split
  · have k := setDisposition_frame s p .stay (.inr h)
    exact k.trans (writeOffer_frame _ _ _ _ (by rw [k.isEnabled]; exact h))
  · exact writeOffer_frame _ _ _ _ h

theorem redecide_frame (p : Port) (gone : Bool) (s : State) : DispatchFrame s (redecide p gone s) := by
  have lose : (s.port p).isEnabled = true → ∀ y, DispatchFrame s (offerNext p y (losePort p s)) := fun h y =>
    (losePort_frame p s).trans (offerNext_frame _ _ _ (by rw [(losePort_frame p s).isEnabled]; exact h))
  unfold redecide
  split
  · exact .refl s
  · have h : (s.port p).isEnabled = true := by simp_all
    split
    · exact lose h _
    · exact .refl s
    · exact .refl s
    · split
      · exact .refl s
      · exact (continueOccupant_frame p s h).trans (displace_frame _ _)
      · exact (offerNext_frame _ _ _ h).trans (displace_frame _ _)
      · exact lose h _
      · exact .refl s
      · exact .refl s

theorem redecideDeleted_frame (p : Port) (s : State) : DispatchFrame s (redecideDeleted p s) := by
  unfold redecideDeleted
  split
  · split
    · next h => exact writeOffer_frame _ _ _ _ h.1
    · exact redecide_frame _ _ _
  · exact redecide_frame _ _ _

end Sys2Proof.Machine
end

