-- ==== Sys2Proof/Laws/Waits.lean ====
section
/-! SUPPORT. What the end of a wait, the serving of the page-wait queue and the freeing of a slot can do: the lists of
waiters only lose entries, and what is no list, no wait and no place of a task stays. -/

namespace Sys2Proof.Machine

/-- A wait record of a kind that meets a condition, by the kind alone. -/
theorem State.waitsFor_iff_kind {s : State} {t : Slot} {k : WaitKind → Prop} :
    s.waitsFor t k ↔ ∃ j, (s.task t).wait.map (·.kind) = some j ∧ k j := by
  unfold State.waitsFor
  cases (s.task t).wait <;> simp

/-! ### Lists that only lose entries -/

/-- An exchange whose lists of waiters have lost entries, everything else unchanged. -/
def ExchangeState.Shrinks : ExchangeState → ExchangeState → Prop
  | .closed, e => e = .closed
  | .message o b, e =>
    ∃ r s, e = .message o { b with receivers := r, senders := s } ∧ r.Sublist b.receivers ∧ s.Sublist b.senders
  | .count o c, e => ∃ a, e = .count o { c with acquirers := a } ∧ a.Sublist c.acquirers

theorem ExchangeState.Shrinks.refl (e : ExchangeState) : e.Shrinks e := by
  cases e
  · rfl
  · exact ⟨_, _, rfl, .refl _, .refl _⟩
  · exact ⟨_, rfl, .refl _⟩

theorem ExchangeState.Shrinks.trans {a b c : ExchangeState} (h : a.Shrinks b) (k : b.Shrinks c) : a.Shrinks c := by
  cases a
  · cases h; exact k
  · obtain ⟨r, s, rfl, hr, hs⟩ := h
    obtain ⟨r', s', rfl, hr', hs'⟩ := k
    exact ⟨_, _, rfl, hr'.trans hr, hs'.trans hs⟩
  · obtain ⟨l, rfl, hl⟩ := h
    obtain ⟨l', rfl, hl'⟩ := k
    exact ⟨_, rfl, hl'.trans hl⟩

/-- What the end of waits leaves of the ports and of the waited-on objects: ports as the Dispatcher leaves them, every
list of waiters and the timer list at most shorter, all else unchanged but the runs and pages of the pool. -/
structure ObjectFrame (s s' : State) : Prop where
  port : ∀ p, PortFrame (s.port p) (s'.port p)
  generation : ∀ x, (s'.exchange x).generation = (s.exchange x).generation
  exchange : ∀ x, (s.exchange x).state.Shrinks (s'.exchange x).state
  freeCells : s'.freeCells = s.freeCells
  time : s'.time = { s.time with timers := s'.time.timers }
  timers : s'.time.timers.Sublist s.time.timers
  line : ∀ l, s'.line l = { s.line l with waiters := (s'.line l).waiters }
  waiters : ∀ l, (s'.line l).waiters.Sublist (s.line l).waiters
  size : s'.pool.size = s.pool.size
  waitQueue : s'.pool.waitQueue.Sublist s.pool.waitQueue
  rst : s'.rst = s.rst
  draws : s'.draws = s.draws
  pending : s'.pending = s.pending

theorem ObjectFrame.refl (s : State) : ObjectFrame s s :=
  ⟨fun _ => .refl _, fun _ => rfl, fun _ => .refl _, rfl, rfl, .refl _, fun _ => rfl, fun _ => .refl _, rfl, .refl _,
    rfl, rfl, rfl⟩

theorem ObjectFrame.trans {a b c : State} (h : ObjectFrame a b) (k : ObjectFrame b c) : ObjectFrame a c where
  port p := (h.port p).trans (k.port p)
  generation x := (k.generation x).trans (h.generation x)
  exchange x := (h.exchange x).trans (k.exchange x)
  freeCells := k.freeCells.trans h.freeCells
  time := by rw [k.time, h.time]
  timers := k.timers.trans h.timers
  line l := by rw [k.line l, h.line l]
  waiters l := (k.waiters l).trans (h.waiters l)
  size := k.size.trans h.size
  waitQueue := k.waitQueue.trans h.waitQueue
  rst := k.rst.trans h.rst
  draws := k.draws.trans h.draws
  pending := k.pending.trans h.pending

theorem DispatchFrame.toObject {s s' : State} (h : DispatchFrame s s') : ObjectFrame s s' where
  port := h.port
  generation x := by simp [State.exchange, h.exchanges]
  exchange x := by rw [show s'.exchange x = s.exchange x by simp [State.exchange, h.exchanges]]; exact .refl _
  freeCells := h.freeCells
  time := by rw [h.time]
  timers := by rw [h.time]
  line l := by simp [State.line, h.lines]
  waiters l := by rw [show s'.line l = s.line l by simp [State.line, h.lines]]
  size := by rw [h.pool]
  waitQueue := by rw [h.pool]
  rst := h.rst
  draws := h.draws
  pending := h.pending

/-- What the end of waits leaves of the tasks: everything but the state, the hold, the wait and the delivery. -/
def TasksKept (s s' : State) : Prop :=
  ∀ t, s'.task t =
    { s.task t with
      state := (s'.task t).state
      holdFlag := (s'.task t).holdFlag
      holdCause := (s'.task t).holdCause
      wait := (s'.task t).wait
      delivery := (s'.task t).delivery }

theorem TasksKept.refl (s : State) : TasksKept s s := fun _ => rfl

theorem TasksKept.trans {a b c : State} (h : TasksKept a b) (k : TasksKept b c) : TasksKept a c := fun t => by
  rw [k t, h t]

theorem DispatchFrame.tasksKept {s s' : State} (h : DispatchFrame s s') : TasksKept s s' := fun t => by
  rw [h.task t]

/-- The frame of the end of a wait. -/
structure WaitFrame (s s' : State) : Prop where
  objects : ObjectFrame s s'
  tasks : TasksKept s s'
  pool : s'.pool = { s.pool with waitQueue := s'.pool.waitQueue }

theorem WaitFrame.refl (s : State) : WaitFrame s s := ⟨.refl s, .refl s, rfl⟩

theorem WaitFrame.trans {a b c : State} (h : WaitFrame a b) (k : WaitFrame b c) : WaitFrame a c :=
  ⟨h.objects.trans k.objects, h.tasks.trans k.tasks, by rw [k.pool, h.pool]⟩

theorem DispatchFrame.toWait {s s' : State} (h : DispatchFrame s s') : WaitFrame s s' :=
  ⟨h.toObject, h.tasksKept, by rw [h.pool]⟩

/-! ### Leaving a list -/

/-- A change of a task that leaves what TasksKept names. -/
theorem updTask_waitFrame (s : State) (t : Slot) (f : TaskRecord → TaskRecord)
    (h : f (s.task t) =
      { s.task t with
        state := (f (s.task t)).state
        holdFlag := (f (s.task t)).holdFlag
        holdCause := (f (s.task t)).holdCause
        wait := (f (s.task t)).wait
        delivery := (f (s.task t)).delivery }) : WaitFrame s (s.updTask t f) where
  objects :=
    ⟨fun p => by simp only [State.updTask_port]; exact .refl _, fun _ => rfl, fun _ => .refl _, rfl, rfl, .refl _, fun _ => rfl, fun _ => .refl _, rfl, .refl _, rfl,
      rfl, rfl⟩
  tasks u := by
    rw [State.updTask_task]
    split
    · subst_vars; exact h
    · rfl
  pool := rfl

theorem removeTimer_frame (t : Slot) (s : State) : WaitFrame s (removeTimer t s) where
  objects :=
    ⟨fun p => by simp only [removeTimer_port]; exact .refl _, fun _ => rfl, fun _ => .refl _, rfl, rfl, List.filter_sublist, fun _ => rfl, fun _ => .refl _, rfl,
      .refl _, rfl, rfl, rfl⟩
  tasks _ := rfl
  pool := rfl

theorem setExchange_frame (s : State) (x : Fin 16) (e : ExchangeState) (h : (s.exchange x).state.Shrinks e) :
    WaitFrame s (s.setExchange x e) where
  objects :=
    ⟨fun p => by simp only [State.setExchange_port]; exact .refl _, fun y => by rw [State.setExchange_exchange]; split <;> simp_all,
      fun y => by
        rw [State.setExchange_exchange]
        split
        · subst_vars; exact h
        · exact .refl _,
      rfl, rfl, .refl _, fun _ => rfl, fun _ => .refl _, rfl, .refl _, rfl, rfl, rfl⟩
  tasks _ := rfl
  pool := rfl

theorem updMailbox_frame (s : State) (x : Fin 16) (f : Mailbox → Mailbox)
    (h : ∀ b, ∃ r q, f b = { b with receivers := r, senders := q } ∧ r.Sublist b.receivers ∧ q.Sublist b.senders) :
    WaitFrame s (s.updMailbox x f) := by
  unfold State.updMailbox
  split
  · next o b e =>
    obtain ⟨r, q, k, hr, hq⟩ := h b
    exact setExchange_frame _ _ _ (by rw [e, k]; exact ⟨r, q, rfl, hr, hq⟩)
  · exact .refl s
  · exact .refl s

theorem updCounter_frame (s : State) (x : Fin 16) (f : Counter → Counter)
    (h : ∀ c, ∃ a, f c = { c with acquirers := a } ∧ a.Sublist c.acquirers) : WaitFrame s (s.updCounter x f) := by
  unfold State.updCounter
  split
  · next o c e =>
    obtain ⟨a, k, ha⟩ := h c
    exact setExchange_frame _ _ _ (by rw [e, k]; exact ⟨a, rfl, ha⟩)
  · exact .refl s
  · exact .refl s

theorem updLine_frame (s : State) (l : Line) (f : LineRecord → LineRecord)
    (h : f (s.line l) = { s.line l with waiters := (f (s.line l)).waiters })
    (k : (f (s.line l)).waiters.Sublist (s.line l).waiters) : WaitFrame s (s.updLine l f) where
  objects :=
    ⟨fun p => by simp only [State.updLine_port]; exact .refl _, fun _ => rfl, fun _ => .refl _, rfl, rfl, .refl _,
      fun m => by
        rw [State.updLine_line]
        split
        · subst_vars; exact h
        · rfl,
      fun m => by
        rw [State.updLine_line]
        split
        · subst_vars; exact k
        · exact .refl _,
      rfl, .refl _, rfl, rfl, rfl⟩
  tasks _ := rfl
  pool := rfl

theorem leaveList_frame (t : Slot) (k : WaitKind) (s : State) : WaitFrame s (leaveList t k s) := by
  unfold leaveList
  split
  · exact .refl s
  · split
    · exact .refl s
    · exact updMailbox_frame _ _ _ fun b => ⟨_, _, rfl, List.erase_sublist, .refl _⟩
  · split
    · exact .refl s
    · exact updMailbox_frame _ _ _ fun b => ⟨_, _, rfl, .refl _, List.erase_sublist⟩
  · split
    · exact .refl s
    · exact updCounter_frame _ _ _ fun c => ⟨_, rfl, List.erase_sublist⟩
  · exact updLine_frame _ _ _ rfl List.erase_sublist
  · exact
      ⟨⟨fun p => by simp only [State.updPool_port]; exact .refl _, fun _ => rfl, fun _ => .refl _, rfl, rfl, .refl _,
          fun _ => rfl, fun _ => .refl _, rfl, List.erase_sublist, rfl, rfl, rfl⟩,
        fun _ => rfl, rfl⟩

theorem leaveWait_frame (t : Slot) (s : State) : WaitFrame s (leaveWait t s) := by
  unfold leaveWait
  split
  · exact removeTimer_frame _ _
  · exact (leaveList_frame _ _ _).trans (removeTimer_frame _ _)

/-! ### The end of a wait -/

theorem becomeHeld_frame (t : Slot) (s : State) : WaitFrame s (becomeHeld t s) := updTask_waitFrame _ _ _ rfl

/-- A port that the task occupies has an occupant. -/
theorem portOfOccupant_occupied {s : State} {t : Slot} {p : Port} (h : s.portOfOccupant t = some p) :
    (s.port p).occ.occupant = some t := by
  unfold State.portOfOccupant at h
  split at h
  · cases h; assumption
  · split at h
    · cases h; assumption
    · cases h

theorem settleWaiter_frame (t : Slot) (s : State) : WaitFrame s (settleWaiter t s) := by
  unfold settleWaiter
  simp only
  split
  · split
    · exact becomeHeld_frame _ _
    · exact (readyTail_frame _ _).toWait
  · split
    · exact .refl s
    · next p o =>
      have occupied := portOfOccupant_occupied o
      split
      · split
        · refine WaitFrame.trans (updTask_waitFrame s t (fun r => { r with holdFlag := false, holdCause := some .command }) rfl)
            (WaitFrame.trans ?_ (redecide_frame _ _ _).toWait)
          exact (setDisposition_frame _ _ _ (.inl (by simp [occupied]))).toWait
        · exact (setDisposition_frame _ _ _ (.inl (by simp [occupied]))).toWait.trans (redecide_frame _ _ _).toWait
      · exact .refl s
  all_goals exact .refl s

theorem endWait_frame (t : Slot) (d : Delivery) (s : State) : WaitFrame s (endWait t d s) :=
  ((leaveWait_frame t s).trans (updTask_waitFrame _ _ _ rfl)).trans (settleWaiter_frame _ _)

theorem endWaits_frame (ts : List Slot) (d : Delivery) : ∀ s, WaitFrame s (endWaits ts d s) := by
  induction ts with
  | nil => exact fun s => .refl s
  | cons t ts ih => exact fun s => (endWait_frame t d s).trans (ih _)

theorem cancelWait_frame (t : Slot) (s : State) : WaitFrame s (cancelWait t s) :=
  (leaveWait_frame t s).trans (updTask_waitFrame _ _ _ rfl)

/-! ### The Page Pool -/

/-- A change of the pool that keeps its size and does not lengthen its queue. -/
theorem updPool_objects (s : State) (f : PagePool → PagePool) (h : (f s.pool).size = s.pool.size)
    (k : (f s.pool).waitQueue.Sublist s.pool.waitQueue) : ObjectFrame s (s.updPool f) :=
  ⟨fun p => by simp only [State.updPool_port]; exact .refl _, fun _ => rfl, fun _ => .refl _, rfl, rfl, .refl _,
    fun _ => rfl, fun _ => .refl _, h, k, rfl, rfl, rfl⟩

theorem updPool_kept (s : State) (f : PagePool → PagePool) : TasksKept s (s.updPool f) := fun t => by
  rw [State.updPool_task]

@[simp] theorem PagePool.createRun_size (e : Fin 64) (first n : Nat) (t : Slot) (p : PagePool) :
    (p.createRun e first n t).size = p.size := by
  unfold PagePool.createRun; rfl

@[simp] theorem PagePool.removeRun_size (e : Fin 64) (p : PagePool) : (p.removeRun e).size = p.size := by
  unfold PagePool.removeRun; split <;> rfl

@[simp] theorem PagePool.removeRun_waitQueue (e : Fin 64) (p : PagePool) :
    (p.removeRun e).waitQueue = p.waitQueue := by
  unfold PagePool.removeRun; split <;> rfl

theorem PagePool.foldl_removeRun (es : List (Fin 64)) : ∀ p : PagePool,
    (es.foldl (fun q e => q.removeRun e) p).size = p.size ∧
      (es.foldl (fun q e => q.removeRun e) p).waitQueue = p.waitQueue := by
  induction es with
  | nil => exact fun _ => ⟨rfl, rfl⟩
  | cons e es ih => intro p; simpa using ih (p.removeRun e)

@[simp] theorem PagePool.releaseRuns_size (t : Slot) (p : PagePool) : (p.releaseRuns t).size = p.size :=
  (PagePool.foldl_removeRun _ p).1

@[simp] theorem PagePool.releaseRuns_waitQueue (t : Slot) (p : PagePool) :
    (p.releaseRuns t).waitQueue = p.waitQueue :=
  (PagePool.foldl_removeRun _ p).2

theorem serveRounds_frame (n : Nat) : ∀ s, ObjectFrame s (serveRounds n s).1 ∧ TasksKept s (serveRounds n s).1 := by
  induction n with
  | zero => exact fun s => ⟨.refl s, .refl s⟩
  | succ n ih =>
    intro s
    unfold serveRounds
    split
    · exact ⟨.refl s, .refl s⟩
    · next t rest q =>
      split
      · exact ⟨.refl s, .refl s⟩
      · next e k g =>
        let f : PagePool → PagePool := fun p => { p.createRun e k (s.askedPages t) t with waitQueue := rest }
        have o : ObjectFrame s (s.updPool f) :=
          updPool_objects s f (by simp only [f, PagePool.createRun_size]) (by simp only [f, q]; exact List.sublist_cons_self _ _)
        have w := endWait_frame t (.ok (.page (BitVec.ofNat 8 k))) (s.updPool f)
        have r := ih (endWait t (.ok (.page (BitVec.ofNat 8 k))) (s.updPool f))
        exact ⟨(o.trans w.objects).trans r.1, ((updPool_kept s _).trans w.tasks).trans r.2⟩

theorem serve_frame (s : State) : ObjectFrame s (serve s) ∧ TasksKept s (serve s) := serveRounds_frame _ s

theorem freeSlot_objects (t : Slot) (s : State) : ObjectFrame s (freeSlot t s) :=
  ObjectFrame.trans (b := s.updTask t fun r => blankTask r.generation)
    ⟨fun p => by simp only [State.updTask_port]; exact .refl _, fun _ => rfl, fun _ => .refl _, rfl, rfl, .refl _,
      fun _ => rfl, fun _ => .refl _, rfl, .refl _, rfl, rfl, rfl⟩
    (updPool_objects _ _ (by simp) (by simp))

theorem retire_objects (t : Slot) (wasHead : Bool) (s : State) : ObjectFrame s (retire t wasHead s) := by
  unfold retire
  split
  · exact (freeSlot_objects t s).trans (serve_frame _).1
  · exact freeSlot_objects t s

/-! ### The laws do not read the queue of commands -/

theorem State.DispatcherLaw.withPending {s : State} (h : s.DispatcherLaw) (l : List Instr) :
    { s with pending := l }.DispatcherLaw :=
  ⟨h.queues, h.occupants, h.incomings, h.dispositions, h.quiet, h.continues⟩

theorem State.ListLaw.withPending {s : State} (h : s.ListLaw) (l : List Instr) : { s with pending := l }.ListLaw :=
  ⟨h.receivers, h.senders, h.acquirers, h.lines, h.pages, h.openMessage, h.openCount, h.asked⟩

theorem State.Lawful.withPending {s : State} (h : s.Lawful) (l : List Instr) : { s with pending := l }.Lawful :=
  ⟨h.ports, h.dispatcher.withPending l, h.urgency, h.affinity, h.doomed, h.exchanges, h.cells, h.filters, h.lines, h.ticks,
    h.timers, h.timerOrder, ⟨h.waits.1, h.waits.2.withPending l⟩, h.pool, h.headBlocked⟩

end Sys2Proof.Machine
end

