-- ==== Sys2Proof/Laws/Command.lean ====
section
/-! SUPPORT. What taking a command, naming a task or an exchange, the caller checks and the completion answer: the model's
operations in the words of the statements. -/

namespace Sys2Proof.Machine

/-! ### Taking and completing (R164, R165) -/

theorem CommandCode.code_injective {a b : CommandCode} (h : a.code = b.code) : a = b := by
  revert h; cases a <;> cases b <;> decide

theorem take_of_submitted {s : State} {p : Port} {c : CommandCode} {params : List Byte} (h : s.Submitted p c params)
    (k : List Byte → State → State) : take p c k s = .next (k params s) := by
  unfold State.Submitted at h
  simp [take, h]

theorem complete_eq_completed (p : Port) (reply : Reply) :
    complete p reply = reply.state.completed p reply.result.code reply.bytes := by
  have h : ∀ r : PortRecord,
      PortRecord.raise .done
        { r with unit := { r.unit with command := none, res := reply.result.code, results := reply.bytes } } =
      { r with
        unit :=
          { r.unit with
            command := none
            res := reply.result.code
            results := reply.bytes
            intp := if r.prst then r.unit.intp else r.unit.intp ||| 0b0010 } } := by
    intro r
    unfold PortRecord.raise
    split <;> simp_all [Cause.mask]
  cases p <;> simp [complete, State.completed, State.updUnit, State.updPort, State.raise, h]

theorem command_of_submitted {s : State} {p : Port} {c : CommandCode} {params : List Byte} (h : s.Submitted p c params)
    (body : List Byte → State → Reply) :
    command p c body s =
      .next ((body params s).state.completed p (body params s).result.code (body params s).bytes) := by
  rw [command, take_of_submitted h, complete_eq_completed]

/-! ### Byte order and handles (R4) -/

theorem half_bytes (v : Half) : half (loByte v) (hiByte v) = v := by
  unfold half loByte hiByte
  apply BitVec.eq_of_toNat_eq
  simp only [BitVec.toNat_append, BitVec.toNat_setWidth, BitVec.toNat_ushiftRight, Nat.shiftRight_eq_div_pow]
  have h := v.isLt
  rw [← Nat.shiftLeft_add_eq_or_of_lt (by omega), Nat.shiftLeft_eq]
  omega

theorem handle_toNat (s : State) (t : Slot) :
    (s.handle t).toNat = (s.task t).generation.toNat * 64 + (t.val + 1) := by
  have h := (s.task t).generation.isLt
  simp only [State.handle, BitVec.toNat_ofNat]
  omega

theorem handleSlot_handle (s : State) (t : Slot) : handleSlot (s.handle t) = some t := by
  have h := (s.task t).generation.isLt
  have k := handle_toNat s t
  unfold handleSlot
  rw [dif_pos (by omega)]
  simp only [Option.some.injEq, Fin.ext_iff]
  omega

theorem namedTask_handle {s : State} {t : Slot} (h : (s.task t).state ≠ .free) (d : (s.task t).doomed = false) :
    s.namedTask (s.handle t) = .ok t := by
  have k := handle_toNat s t
  have l := (s.task t).generation.isLt
  unfold State.namedTask
  rw [handleSlot_handle]
  simp only
  rw [if_pos ⟨by omega, h, d⟩]

theorem withTask_handle {s : State} {t : Slot} (h : (s.task t).state ≠ .free) (d : (s.task t).doomed = false)
    (k : Slot → Reply) : withTask (half (loByte (s.handle t)) (hiByte (s.handle t))) s k = k t := by
  unfold withTask
  rw [half_bytes, namedTask_handle h d]

/-- A well-formed handle of another generation, of a FREE slot or of a doomed task is stale (R4, R10). -/
theorem withTask_stale {s : State} {t : Slot} {v : Half} (e : handleSlot v = some t)
    (h : v.toNat / 64 ≠ (s.task t).generation.toNat ∨ (s.task t).state = .free ∨ (s.task t).doomed = true)
    (k : Slot → Reply) : withTask v s k = refuse .staleHandle s := by
  unfold withTask State.namedTask
  rw [e]
  simp only
  rw [if_neg]
  rintro ⟨h₁, h₂, h₃⟩
  rcases h with h | h | h
  · exact h h₁
  · exact h₂ h
  · rw [h₃] at h; cases h

/-! ### Exchange ids (R72) -/

theorem exchangeIndex_eq {id : Byte} {x : Fin 16} (h : id.toNat % 32 = x.val + 1) : exchangeIndex id = some x := by
  unfold exchangeIndex
  rw [dif_pos (by omega)]
  simp only [Option.some.injEq, Fin.ext_iff]
  omega

theorem exchangeId_toNat (s : State) (x : Fin 16) :
    (s.exchangeId x).toNat = (s.exchange x).generation.toNat * 32 + (x.val + 1) := by
  have h := (s.exchange x).generation.isLt
  simp only [State.exchangeId, BitVec.toNat_ofNat]
  omega

theorem exchangeIndex_exchangeId (s : State) (x : Fin 16) : exchangeIndex (s.exchangeId x) = some x :=
  exchangeIndex_eq (by have := exchangeId_toNat s x; omega)

theorem withExchange_id {s : State} {x : Fin 16} (h : (s.exchange x).state ≠ .closed) (k : Fin 16 → Reply) :
    withExchange (s.exchangeId x) s k = k x := by
  have e := exchangeId_toNat s x
  unfold withExchange State.namedExchange
  rw [exchangeIndex_exchangeId]
  simp only
  rw [if_pos ⟨by omega, h⟩]

/-! ### Callers and wait options (R84, R169) -/

theorem callerOf_of_isCaller {s : State} {p : Port} {x : Slot} (h : s.IsCaller p x) : s.callerOf p = .ok x := by
  unfold State.callerOf
  rw [h.occupant]
  simp [h.notDoomed, h.notWaiting, h.notHeld]

theorem withCaller_of_isCaller {s : State} {p : Port} {x : Slot} (h : s.IsCaller p x) (k : Slot → Reply) :
    withCaller p s k = k x := by
  unfold withCaller
  rw [callerOf_of_isCaller h]

theorem mayWait_iff (option : Byte) : mayWait option = true ↔ option = 1 ∨ option = 2 := by
  simp [mayWait]

theorem waitInRange_iff (option : Byte) (timeout : Half) :
    waitInRange option timeout = true ↔ OptionInRange option timeout := by
  unfold waitInRange OptionInRange
  have h : option.toNat ≤ 2 ↔ option = 0 ∨ option = 1 ∨ option = 2 := by
    revert option; decide
  simp only [Bool.and_eq_true, decide_eq_true_eq, Bool.not_eq_true', Bool.and_eq_false_iff, beq_eq_false_iff_ne, h]
  constructor
  · rintro ⟨rfl | rfl | rfl, k⟩ <;> simp_all
  · rintro (rfl | rfl | ⟨rfl, k⟩) <;> simp_all

/-- A command that may be asked runs with a caller when it may wait, and without one otherwise. -/
theorem withWaiter_cases {s : State} {p : Port} {option : Byte} (h : s.MayAsk p option) (k : Option Slot → Reply) :
    (option ≠ 1 ∧ option ≠ 2 ∧ withWaiter p option s k = k none) ∨
      ((option = 1 ∨ option = 2) ∧ ∃ x, s.IsCaller p x ∧ withWaiter p option s k = k (some x)) := by
  unfold withWaiter
  by_cases w : option = 1 ∨ option = 2
  · obtain ⟨x, hx⟩ := h w
    rw [if_pos ((mayWait_iff _).2 w), withCaller_of_isCaller hx]
    exact .inr ⟨w, x, hx, rfl⟩
  · have m : ¬mayWait option = true := fun m => w ((mayWait_iff _).1 m)
    rw [if_neg m]
    exact .inl ⟨fun e => w (.inl e), fun e => w (.inr e), rfl⟩

theorem IsCaller_unique {s : State} {p : Port} {x y : Slot} (h : s.IsCaller p x) (k : s.IsCaller p y) : x = y := by
  have := h.occupant.symm.trans k.occupant
  cases this; rfl

theorem deadlineOf_of_deadlineIs {s : State} {option : Byte} {timeout : Half} {d : Option TickCount}
    (h : s.DeadlineIs option timeout d) : s.deadlineOf option timeout = d := by
  rcases h with ⟨rfl, rfl⟩ | ⟨rfl, rfl⟩ <;> rfl

/-- The beginning of a wait, completed WAITING, in the words of the statements. -/
theorem beganWait_completed (p : Port) (x : Slot) (kind : WaitKind) (d : Option TickCount) (s : State) :
    (beganWait (beginWait p x kind d s)).state.completed p (beganWait (beginWait p x kind d s)).result.code
      (beganWait (beginWait p x kind d s)).bytes = s.waitBegun p x kind d := rfl

/-! ### The Dispatcher's tests (R27, R28, R33) -/

theorem eligible_iff (s : State) (p : Port) (t : Slot) : s.eligible p t = true ↔ s.EligibleFor p t := by
  unfold State.eligible State.EligibleFor PortRecord.isEnabled
  cases (s.task t).affinity <;> cases p <;> simp [Affinity.permits]

theorem urgency_none (s : State) : s.urgency none = 32 := rfl

theorem urgency_some (s : State) (t : Slot) : s.urgency (some t) = (s.task t).priority.val := rfl

theorem urgency_some_lt (s : State) (t : Slot) : s.urgency (some t) < 32 := (s.task t).priority.isLt

theorem isCandidate_iff (s : State) (t : Slot) (p : Port) : s.isCandidate t p = true ↔ s.Candidate t p := by
  unfold State.isCandidate State.Candidate
  rw [Bool.and_eq_true, eligible_iff, decide_eq_true_eq]
  refine and_congr_right fun _ => ?_
  cases h : s.next p with
  | none => simp [State.urgency]
  | some y => simp [State.urgency]

theorem firstPeer_eq_some {s : State} {p : Port} {x f : Slot} :
    s.firstPeer p x = some f ↔ s.FirstEligible p (s.task x).priority f := by
  unfold State.firstPeer State.FirstEligible
  rw [List.find?_eq_some_iff_append]
  simp only [eligible_iff]
  constructor
  · rintro ⟨e, as, bs, h, k⟩
    exact ⟨as, bs, h, e, fun u hu => by simpa [← eligible_iff] using k u hu⟩
  · rintro ⟨as, bs, h, e, k⟩
    exact ⟨e, as, bs, h, fun u hu => by simpa [← eligible_iff] using k u hu⟩

theorem firstPeer_eq_none {s : State} {p : Port} {x : Slot} :
    s.firstPeer p x = none ↔ ∀ t ∈ s.queue (s.task x).priority, ¬s.EligibleFor p t := by
  unfold State.firstPeer
  simp only [List.find?_eq_none, eligible_iff]

/-! ### Where a task stands (R45, R47) -/

theorem portOfOccupant_of_occupies {s : State} {t : Slot} {p : Port} (h : s.Occupies t p) :
    s.portOfOccupant t = some p := by
  obtain ⟨h, k⟩ := h
  unfold State.portOfOccupant
  cases p
  · exact if_pos h
  · exact (if_neg k).trans (if_pos h)

theorem portOfIncoming_of_incomingOn {s : State} {t : Slot} {p : Port} (h : s.IncomingOn t p) :
    s.portOfIncoming t = some p := by
  obtain ⟨h, k⟩ := h
  unfold State.portOfIncoming
  cases p
  · rw [if_pos h]
  · rw [if_neg (by simpa [otherPort] using k), if_pos h]

end Sys2Proof.Machine
end

