-- ==== Sys2Proof/Laws/Rounds.lean ====
section
/-! SUPPORT. The rounds of serving and of refill (log entry 13): any number of rounds that is at least the length of the
list gives the same, so the list's length stands for "as long as". And two small equations of updates. -/

namespace Sys2Proof.Machine

/-- Two updates of one slot's record are one. -/
theorem updTask_updTask (s : State) (t : Slot) (f g : TaskRecord → TaskRecord) :
    (s.updTask t f).updTask t g = s.updTask t fun r => g (f r) := by
  simp [State.updTask, State.task]

/-- A cause that becomes pending, spelled out (R171). -/
theorem raise_eq (s : State) (q : Port) (c : Cause) :
    s.raise q c =
      s.updPort q fun r =>
        { r with unit := { r.unit with intp := if r.prst then r.unit.intp else r.unit.intp ||| c.mask } } := by
  have h : ∀ r : PortRecord, r.raise c =
      { r with unit := { r.unit with intp := if r.prst then r.unit.intp else r.unit.intp ||| c.mask } } := by
    intro r
    unfold PortRecord.raise
    split <;> rfl
  cases q <;> simp only [State.raise, State.updPort, h]

/-- Serving with enough rounds (R150). -/
theorem serveRounds_enough : ∀ (n m : Nat) (s : State), s.pool.waitQueue.length ≤ n → s.pool.waitQueue.length ≤ m →
    serveRounds n s = serveRounds m s := by
  intro n
  induction n with
  | zero =>
    intro m s h _
    have e : s.pool.waitQueue = [] := List.length_eq_zero_iff.1 (by omega)
    cases m with
    | zero => rfl
    | succ m => simp [serveRounds, e]
  | succ n ih =>
    intro m s h k
    cases m with
    | zero =>
      have e : s.pool.waitQueue = [] := List.length_eq_zero_iff.1 (by omega)
      simp [serveRounds, e]
    | succ m =>
      simp only [serveRounds]
      cases e : s.pool.waitQueue with
      | nil => rfl
      | cons t rest =>
        simp only
        cases g : s.pool.grantFor (s.askedPages t) with
        | none => rfl
        | some ek =>
          obtain ⟨e', k'⟩ := ek
          simp only
          have l := (endWait_frame t (.ok (.page (BitVec.ofNat 8 k')))
            (s.updPool fun p => { p.createRun e' k' (s.askedPages t) t with waitQueue := rest })).objects.waitQueue.length_le
          simp only [State.updPool] at l
          rw [e, List.length_cons] at h k
          rw [ih m _ (by simp only [State.updPool]; omega) (by simp only [State.updPool]; omega)]

/-- The senders that wait at an exchange: none unless it is an OPEN MESSAGE exchange. -/
def ExchangeState.senders : ExchangeState → List Slot
  | .message _ b => b.senders
  | .closed | .count _ _ => []

theorem ExchangeState.Shrinks.senders {a b : ExchangeState} (h : a.Shrinks b) : b.senders.Sublist a.senders := by
  cases a
  · cases h; exact .refl _
  · obtain ⟨r, s, rfl, _, hs⟩ := h; exact hs
  · obtain ⟨l, rfl, _⟩ := h; exact .refl _

theorem endWait_senders (t : Slot) (d : Delivery) (s : State) (x : Fin 16) :
    ((endWait t d s).exchange x).state.senders.Sublist (s.exchange x).state.senders :=
  ((endWait_frame t d s).objects.exchange x).senders

/-- An update of a mailbox that takes no sender in. -/
theorem updMailbox_senders (s : State) (x : Fin 16) (f : Mailbox → Mailbox)
    (h : ∀ b, (f b).senders.Sublist b.senders) :
    ((s.updMailbox x f).exchange x).state.senders.Sublist (s.exchange x).state.senders := by
  unfold State.updMailbox
  cases e : (s.exchange x).state with
  | closed => simp [e]
  | message o b => simpa [State.exchange, State.setExchange, ExchangeState.senders] using h b
  | count o c => simp [e]

theorem deliverOrQueue_senders (x : Fin 16) (m : Message) (s : State) :
    ((deliverOrQueue x m s).exchange x).state.senders.Sublist (s.exchange x).state.senders := by
  unfold deliverOrQueue
  split
  · exact (endWait_senders _ _ _ x).trans (updMailbox_senders s x _ fun _ => .refl _)
  · exact updMailbox_senders s x _ fun _ => .refl _

/-- Refill with enough rounds (R89). -/
theorem refillRounds_enough (x : Fin 16) : ∀ (n m : Nat) (s : State), (s.exchange x).state.senders.length ≤ n →
    (s.exchange x).state.senders.length ≤ m → refillRounds n x s = refillRounds m x s := by
  have stop : ∀ (n : Nat) (s : State), (s.exchange x).state.senders = [] → refillRounds n x s = s := by
    intro n s e
    cases n with
    | zero => rfl
    | succ n =>
      unfold refillRounds State.mailbox
      cases k : (s.exchange x).state with
      | closed => rfl
      | count o c => rfl
      | message o b =>
        have hb : b.senders = [] := by rw [k] at e; exact e
        simp only [hb]
        split <;> rfl
  intro n
  induction n with
  | zero =>
    intro m s h _
    have e := List.length_eq_zero_iff.1 (Nat.le_zero.1 h)
    rw [stop _ s e, stop _ s e]
  | succ n ih =>
    intro m s h k
    cases m with
    | zero =>
      have e := List.length_eq_zero_iff.1 (Nat.le_zero.1 k)
      rw [stop _ s e, stop _ s e]
    | succ m =>
      simp only [refillRounds, State.mailbox]
      cases e : (s.exchange x).state with
      | closed => rfl
      | count o c => rfl
      | message o b =>
        simp only
        split
        · cases hb : b.senders with
          | nil => rfl
          | cons t rest =>
            simp only
            have l₀ : ((s.updMailbox x fun b => { b with senders := rest }).exchange x).state.senders = rest := by
              unfold State.updMailbox
              rw [e]
              simp [State.exchange, State.setExchange, ExchangeState.senders]
            have l₁ := (endWait_senders t (.ok .none) (s.updMailbox x fun b => { b with senders := rest }) x).length_le
            rw [l₀] at l₁
            have hl : rest.length + 1 = (s.exchange x).state.senders.length := by rw [e]; simp [ExchangeState.senders, hb]
            cases s.heldMessage t with
            | none => exact ih m _ (by simp only; omega) (by simp only; omega)
            | some msg =>
              have l₂ := (deliverOrQueue_senders x msg
                (endWait t (.ok .none) (s.updMailbox x fun b => { b with senders := rest }))).length_le
              exact ih m _ (by simp only; omega) (by simp only; omega)
        · rfl

end Sys2Proof.Machine
end

