-- ==== Sys2Proof/WellFormed.lean ====
section
/-! DEFINITION. Which commands are well formed. The operand types already bound ports, lines, slots and bytes; the
one check left is that an ignored write goes to a location that has no write function (R161). -/

namespace Sys2Proof

/-- The locations of the window that have a write function: CMD, PRM, INTP, INTE and ACC (R161). -/
def hasWriteFunction (location : BitVec 5) : Bool :=
  [0x00#5, 0x02#5, 0x05#5, 0x06#5, 0x18#5].contains location

/-- A command is well formed when its operands are ones the row of the table can have. -/
def Instr.wellFormed : Instr → Bool
  | .writeIgnored _ location _ => !hasWriteFunction location
  | .taskCreate _ | .taskStart _ | .taskDelete _ | .taskExit _ | .taskHold _ | .taskRelease _ | .taskSetpri _
  | .taskSetaff _ | .taskSetctx _ | .taskQuery _ | .taskSelf _ | .taskYield _ | .taskDelay _ | .xchOpen _
  | .xchClose _ | .xchQuery _ | .msgSend _ | .msgRecv _ | .cntAcquire _ | .cntRelease _ | .evtConfig _ | .evtWait _
  | .evtQuery _ | .pageAlloc _ | .pageFree _ | .pageGive _ | .pageQuery _ | .pageReclaim _ | .pageConfig _
  | .timeConfig _ | .timeRead _ | .portEnable _ | .portDrop _ | .peerDrop _ | .deviceReset _ | .badCommand _
  | .prmWrite _ _ | .prmRead _ | .intpWrite _ _ | .inteWrite _ _ | .accept _ _ | .prstAssert _ | .prstRelease _
  | .rstAssert | .rstRelease | .lineEvent _ _ | .tick | .expiry _ | .sliceExpiry _ | .cmdWrite _ _
  | .lineSample _ => true

end Sys2Proof
end

