-- ==== Sys2Proof/Tests/Slice0.lean ====
section
/-! SUPPORT. The model's own tests: the smoke test of well-formedness, for every row of the table a step or two on a small
state, and for every statement with hypotheses a witness that they can be met, clause by clause, at the boundary values.
Task numbers in the names are slots of the manual, one more than the index. -/

namespace Sys2Proof.Tests
set_option Elab.async false
open Sys2Proof Sys2Proof.Machine

/-! ### Small states -/

/-- A task record of a state and a priority, with quantum 2 and one tick of it remaining. -/
def taskOf (st : TaskState) (priority : Fin 32) : TaskRecord :=
  { blankTask 0 with state := st, priority := priority, quantum := 2, remaining := 1 }

/-- A WAITING task of level 6. -/
def waiter (k : WaitKind) (deadline : Option TickCount) : TaskRecord :=
  { taskOf .waiting 6 with wait := some ⟨k, deadline⟩ }

/-- Both ports ENABLED and IDLE, no task. -/
def idle : State :=
  { State.reset with portA := { resetPort with lifecycle := .enabled }, portB := { resetPort with lifecycle := .enabled } }

/-- Slots 1 and 2 RUNNING on A and B, slot 3 READY, 4 DORMANT, 5 HELD, all of level 5; slots 6 to 12 WAITING: a delay until
tick 1, a receiver of tags 1 to 3 and a sender at exchange 1, an acquirer at exchange 2, line 0, 6 pages, 2 pages. Exchange 1
holds one message of tag 9 and is full; exchange 2 is a COUNT at 0 of ceiling 1; exchange 3 an URGENCY mailbox of two;
exchange 4 a COUNT at its ceiling 1. The pool has 8 pages, of which slot 1 owns 0 to 3 in one run. -/
def demo : State :=
  { idle with
    tasks :=
      (((((((((((State.reset.tasks.set 0 (taskOf .running 5)).set 1 (taskOf .running 5)).set 2 (taskOf .ready 5)).set 3
        (taskOf .dormant 5)).set 4 { taskOf .held 5 with holdCause := some .command }).set 5
        (waiter .delay (some 1))).set 6 (waiter (.recv 0x01 1 3) none)).set 7
        (waiter (.send 0x01 ⟨2, 7, 0x8000⟩) none)).set 8 (waiter (.acquire 0x02) none)).set 9
        (waiter (.event 0) none)).set 10 (waiter (.pages 6) none)).set 11 (waiter (.pages 2) none)
    queues := State.reset.queues.set 5 [2]
    portA := { idle.portA with occ := { resetOccupancy with occupant := some 0 } }
    portB := { idle.portB with occ := { resetOccupancy with occupant := some 1 } }
    exchanges :=
      (((State.reset.exchanges.set 0 ⟨0, .message .arrival ⟨1, [⟨9, 5, 0x8001⟩], [6], [7]⟩⟩).set 1
        ⟨0, .count .arrival ⟨1, 0, [8]⟩⟩).set 2 ⟨0, .message .urgency ⟨2, [], [], []⟩⟩).set 3
        ⟨0, .count .urgency ⟨1, 1, []⟩⟩
    freeCells := 61
    time := { resetTime with timers := [⟨5, 1⟩] }
    lines := State.reset.lines.set 0 { resetLine with sampled := true, edgeMode := .both, waiters := [9] }
    pool := { ({ resetPool with size := 8, freePages := 8 }.createRun 0 0 4 0) with waitQueue := [10, 11] } }

/-- The state with a command submitted on a port. -/
def submit (p : Port) (c : CommandCode) (params : List Byte) (s : State) : State :=
  s.updUnit p fun u => { u with command := some ⟨c.code, params⟩ }

/-- The state with an offer on a port, whose occupant has a disposition. -/
def offering (p : Port) (k : OfferKind) (y : Option Slot) (d : Option Disposition) (s : State) : State :=
  s.updOcc p fun o => { o with offer := some ⟨o.sequence, k, y, none, none, none⟩, disposition := d }

/-- Slot 3 SELECTED, the incoming of a SWITCH offer on port A, whose occupant slot 1 departs with a disposition. -/
def switching (d : Disposition) : State :=
  offering .A .switchTask (some 2) (some d) { demo with
    tasks := demo.tasks.set 2 (taskOf .selected 5), queues := State.reset.queues }

/-- The CONTINUE offer of port A's occupant. -/
def continuing : State := offering .A .continueTask (some 0) (some .stay) demo

/-- The next state of a command; every command has one. -/
def after (c : Instr) (s : State) : State :=
  match exec c s with
  | .next u => u
  | .fault _ | .refused _ => s

/-- The command that a port has submitted completes with a code and result bytes. -/
def answers (p : Port) (c : CommandCode) (params : List Byte) (s : State) (code : Byte) (bytes : List Byte) : Bool :=
  let u := (after (c.row p) (submit p c params s)).port p
  u.unit.command.isNone && u.unit.res == code && u.unit.results == bytes

/-- A submitted command is submitted. -/
theorem submit_submits (p : Port) (c : CommandCode) (params : List Byte) (s : State) :
    (submit p c params s).Submitted p c params := by
  cases p <;> rfl

/-- Slot 1 is the caller on port A. -/
theorem demo_caller : demo.IsCaller .A 0 := ⟨by decide +kernel, by decide +kernel, by decide +kernel, by decide +kernel⟩

/-- The records of the test state agree, and no READY task waits ahead of a port's next. -/
theorem demo_dispatcherLaw : demo.DispatcherLaw := by
  refine ⟨?_, ?_, ?_, ?_, ?_, ?_⟩
  · unfold State.QueueLaw; decide +kernel
  · unfold State.OccupantLaw; decide +kernel
  · unfold State.IncomingLaw; decide +kernel
  · intro p; cases p <;> exact ⟨by decide +kernel, by intro f h; cases h⟩
  · intro p h; cases p <;> cases h
  · intro p o h; cases p <;> cases h

theorem demo_urgencyLaw : demo.UrgencyLaw := by
  intro p; cases p <;> decide +kernel


/-- What `submit` leaves as it was, so that a fact of `s` is a fact of the state with the command submitted. -/
theorem submit_keeps (p : Port) (c : CommandCode) (params : List Byte) (s : State) :
    let u := submit p c params s
    u.tasks = s.tasks ∧ u.queues = s.queues ∧ u.exchanges = s.exchanges ∧ u.freeCells = s.freeCells ∧
      u.time = s.time ∧ u.lines = s.lines ∧ u.pool = s.pool ∧ u.rst = s.rst ∧
      ∀ q, (u.port q).occ = (s.port q).occ ∧ (u.port q).lifecycle = (s.port q).lifecycle ∧
        (u.port q).prst = (s.port q).prst := by
  cases p <;> refine ⟨rfl, rfl, rfl, rfl, rfl, rfl, rfl, rfl, fun q => ?_⟩ <;> cases q <;> exact ⟨rfl, rfl, rfl⟩

/-- Submitting a command on the handle of a task submits it on the handle of that task, -/
theorem submit_handle (p : Port) (c : CommandCode) (rest : List Byte) (s : State) (t : Slot) :
    let u := submit p c (halfBytes (s.handle t) ++ rest) s
    u.Submitted p c (halfBytes (u.handle t) ++ rest) := by
  cases p <;> rfl

/-- and a caller stays the caller. -/
theorem submit_caller {s : State} {q : Port} {x : Slot} (h : s.IsCaller q x) (p : Port) (c : CommandCode)
    (params : List Byte) : (submit p c params s).IsCaller q x := by
  obtain ⟨h₁, h₂, h₃, h₄⟩ := h
  cases p <;> cases q <;> exact ⟨h₁, h₂, h₃, h₄⟩

/-- Every wait option may be asked on a port with a caller. -/
theorem mayAsk_of_caller {s : State} {p : Port} {x : Slot} (h : s.IsCaller p x) (option : Byte) : s.MayAsk p option :=
  fun _ => ⟨x, h⟩

/-- The handles of the tasks of the test state have generation 0. -/
theorem demo_handle : ∀ t : Slot, halfBytes (demo.handle t) = [BitVec.ofNat 8 (t.val + 1), 0] := by decide +kernel

/-! ### Well-formedness and the table -/

/-- Every check of well-formedness refuses an ill-formed term: an ignored write to each location with a write function. -/
theorem test_wellFormed_refuses :
    [0x00#5, 0x02#5, 0x05#5, 0x06#5, 0x18#5].all (fun l => !(Instr.writeIgnored .A l 0).wellFormed) = true := by decide

theorem test_wellFormed_accepts :
    (Instr.writeIgnored .B 0x1F 0).wellFormed = true ∧ (Instr.writeIgnored .B 0x01 0).wellFormed = true ∧
      (Instr.accept .A 3).wellFormed = true := by decide

/-- No row of the table has bits. -/
theorem test_no_word_spells_a_command : decodeTableWord 8 0x10 = none ∧ State.reset.withFetchWord 8 0x10 = State.reset := by
  decide +kernel

/-! ### The queue and the clock -/

/-- Clauses of the idle step at their bounds: 198 and 199 CLK periods, and 98 and 99 base intervals, of N = 100. -/
theorem witness_idleStep :
    let at_ := fun b n => { demo with time := { demo.time with baseDivider := b, intervalCounter := n } }
    ((at_ 198 99).pending = [] ∧ (at_ 198 99).rst = false ∧ 198 + 1 < 200) ∧
      (200 ≤ 199 + 1 ∧ 98 + 1 < (at_ 199 98).time.periodN) ∧ (at_ 199 99).time.periodN ≤ 99 + 1 ∧
      step (at_ 199 99) = exec .tick (at_ 199 99) ∧ { demo with rst := true }.pending = [] := by
  refine ⟨by decide +kernel, by decide +kernel, by decide +kernel, ?_, rfl⟩
  rfl

/-- The tick of an idle step is the last CLK period of N base intervals. -/
theorem test_idleStep_ticks :
    step { State.reset with time := { resetTime with baseDivider := 199, intervalCounter := 99 } } =
      .next { State.reset with time := { resetTime with counter := 1 } } := rfl

/-! ### The window -/

theorem witness_closedWindow :
    let s := { demo with portA := { demo.portA with prst := true } }
    (s.port .A).prst = true ∧ (s.port .B).prst = false ∧ { demo with rst := true }.rst = true ∧
      s.readLocation .A 0x00 = 0 ∧ demo.readLocation .A 0x00 = 0x14 := by decide +kernel

/-- Staging at 7 and 8 bytes, a CMD write in READY and in BUSY, a PRM read with a result byte and with none. -/
theorem witness_window :
    let staged := fun n => demo.updUnit .A fun u => { u with staging := List.replicate n 0x55 }
    ((staged 7).port .A).unit.staging.length < 8 ∧ 8 ≤ ((staged 8).port .A).unit.staging.length ∧
      (demo.port .A).unit.command = none ∧ ((submit .A .timeRead [] demo).port .A).unit.command ≠ none ∧
      ((demo.updUnit .A fun u => { u with results := [4, 5] }).port .A).unit.results = [4, 5] ∧
      (demo.port .A).unit.results = [] ∧ (demo.port .A).prst = false ∧ demo.rst = false := by decide +kernel

theorem test_prmWrite_ninth_byte_is_lost :
    let u := (after (.prmWrite .A 9) (demo.updUnit .A fun u => { u with staging := List.replicate 8 1 })).port .A
    u.unit.staging = List.replicate 8 1 ∧ u.unit.overrun = true := by decide +kernel

theorem test_prmRead_removes_the_head :
    let u := ((after (.prmRead .A) (demo.updUnit .A fun u => { u with results := [4, 5] })).port .A).unit
    u.dataOut = 4 ∧ u.results = [5] := by decide +kernel

theorem test_cmdWrite_submits :
    let u := ((after (.cmdWrite .A 0x10) (demo.updUnit .A fun u =>
      { u with staging := [1, 2], res := 3, intp := 0b0011 })).port .A).unit
    u.command = some ⟨0x10, [1, 2]⟩ ∧ u.staging = [] ∧ u.res = 0 ∧ u.intp = 0b0001 := by decide +kernel

theorem test_cmdWrite_busy_is_lost :
    let u := ((after (.cmdWrite .A 0x10) (submit .A .timeRead [] demo)).port .A).unit
    u.command = some ⟨0x51, []⟩ ∧ u.overrun = true := by decide +kernel

theorem test_intpWrite_clears_ones :
    ((after (.intpWrite .A 0b0101) (demo.updUnit .A fun u => { u with intp := 0b0111 })).port .A).unit.intp = 0b0010 := by
  decide +kernel

theorem test_inteWrite_drives_the_output :
    ((after (.inteWrite .A 0xF2) (demo.updUnit .A fun u => { u with intp := 0b0010 })).port .A).interruptDriven = true ∧
      ((after (.inteWrite .A 0xF4) (demo.updUnit .A fun u => { u with intp := 0b0010 })).port .A).interruptDriven = false :=
  by decide +kernel

theorem test_writeIgnored : after (.writeIgnored .A 0x1F 7) demo = demo := rfl

/-- What RES, PRM with and without a byte, PCNT, RCNT, INTP, INTE and the locations not listed read. -/
theorem witness_unitWindow :
    let filled := demo.updUnit .A fun u =>
      { u with res := 0x15, results := [4, 5], staging := [1, 2, 3], intp := 0b0110, inte := 0b1001 }
    ([0x01, 0x02, 0x03, 0x04, 0x05, 0x06].map fun l => filled.readLocation .A l) = [0x15, 4, 3, 2, 6, 9] ∧
      demo.readLocation .A 0x02 = 0 ∧
      ([0x07, 0x19, 0x1A, 0x1B, 0x1C, 0x1D, 0x1E, 0x1F].all fun l => filled.readLocation .A l == 0) = true := by
  decide +kernel

/-- An offer with no delivery and with each kind of one. -/
theorem witness_offerWindow :
    let delivered := fun d => (switching .readyHead).updOcc .A fun o =>
      { o with offer := some ⟨1, .switchTask, some 2, some 0x030201, some 0x060504, d⟩ }
    let reads := fun d => (List.range 15).map fun i => (delivered d).readLocation .A (BitVec.ofNat 5 (9 + i))
    ((delivered none).port .A).prst = false ∧ (delivered none).rst = false ∧ (demo.port .A).occ.offer = none ∧
      reads none = [1, 3, 0, 1, 2, 3, 4, 5, 6, 0, 0, 0, 0, 0, 0] ∧
      reads (some (.ok (.message ⟨8, 0x0A09, 0x8001⟩))) = [1, 3, 0, 1, 2, 3, 4, 5, 6, 1, 8, 9, 0x0A, 0x01, 0x80] ∧
      reads (some (.ok (.page 127))) = [1, 3, 0, 1, 2, 3, 4, 5, 6, 1, 127, 0, 0, 0, 0] ∧
      reads (some .lost) = [1, 3, 0, 1, 2, 3, 4, 5, 6, 4, 0, 0, 0, 0, 0] := by decide +kernel

/-! ### Command codes and checks -/

/-- 00h and FFh are no codes; 10h is one, taken by the row TASK_CREATE. -/
theorem witness_commandCodes :
    (∀ c : CommandCode, c.code ≠ 0x00) ∧ (∀ c : CommandCode, c.code ≠ 0xFF) ∧ takingRow .B 0x10 = .taskCreate .B := by
  refine ⟨?_, ?_, rfl⟩ <;> intro c <;> cases c <;> decide

theorem test_badCommand :
    let u := ((after (.badCommand .A) (demo.updUnit .A fun u => { u with command := some ⟨0xFF, []⟩ })).port .A).unit
    u.command = none ∧ u.res = 0x10 ∧ u.intp = 0b0010 := by decide +kernel

/-- A wrong count: 1 and 3 bytes for a command of 2. -/
theorem witness_paramCount :
    [0x03#8].length ≠ CommandCode.taskStart.paramCount ∧ [0x03#8, 0, 0].length ≠ CommandCode.taskStart.paramCount ∧
      answers .A .taskStart [3] demo 0x11 [] = true ∧ answers .A .taskStart [3, 0, 0] demo 0x11 [] = true := by
  decide +kernel

/-- NO_CALLER, CALLER_GONE, DEPARTING with WAIT and with HELD, and the wait options 3 and TIMED with timeout 0. -/
theorem witness_callerChecks :
    callerRequired .taskSelf [] = true ∧ callerRequired .cntAcquire [2, 1, 0, 0] = true ∧
      callerRequired .cntAcquire [2, 0, 0, 0] = false ∧
      answers .A .taskSelf [] idle 0x17 [] = true ∧
      answers .A .taskSelf [] (demo.updTask 0 fun r => { r with doomed := true }) 0x19 [] = true ∧
      answers .A .taskSelf [] (switching .wait) 0x18 [] = true ∧ answers .A .taskSelf [] (switching .held) 0x18 [] = true ∧
      answers .A .taskSelf [] (switching .readyHead) 0x00 [1, 0] = true ∧
      answers .A .cntAcquire [2, 3, 1, 0] demo 0x12 [] = true ∧ answers .A .cntAcquire [2, 2, 0, 0] demo 0x12 [] = true := by
  decide +kernel

theorem witness_waitOptions :
    ¬OptionInRange 3 1 ∧ ¬OptionInRange 2 0 ∧ OptionInRange 2 1 ∧ OptionInRange 0 0 ∧ OptionInRange 1 0 ∧
      demo.MayAsk .A 3 ∧ demo.DeadlineIs 2 1 (some 1) ∧ demo.DeadlineIs 1 9 none := by
  refine ⟨?_, ?_, ?_, ?_, ?_, mayAsk_of_caller demo_caller 3, ?_, ?_⟩ <;>
    simp only [OptionInRange, State.DeadlineIs] <;> decide +kernel

/-- Handles: slot parts 0 and 49, a value above 03FFh, another generation, a FREE slot; exchange ids: numbers 0 and 17,
another generation, a CLOSED record. -/
theorem witness_handleChecks :
    answers .A .taskQuery [0x40, 0] demo 0x12 [] = true ∧ answers .A .taskQuery [49, 0] demo 0x12 [] = true ∧
      answers .A .taskQuery [1, 4] demo 0x12 [] = true ∧ answers .A .taskQuery [0x43, 0] demo 0x13 [] = true ∧
      answers .A .taskQuery [48, 0] demo 0x13 [] = true ∧
      answers .A .xchQuery [0x20] demo 0x12 [] = true ∧ answers .A .xchQuery [17] demo 0x12 [] = true ∧
      answers .A .xchQuery [0x21] demo 0x14 [] = true ∧ answers .A .xchQuery [16] demo 0x14 [] = true := by decide +kernel

/-! ### The Dispatcher -/

/-- `demo` with port B DISABLED and slot 3 of a priority. -/
def ranked (priority : Fin 32) : State :=
  { demo with
    tasks := demo.tasks.set 2 (taskOf .ready priority)
    queues := State.reset.queues.set priority [2]
    portB := resetPort }

/-- The first eligible task of the best level, with a less urgent one behind; and the level before it empty. -/
theorem witness_selection :
    demo.FirstEligible .A 5 2 ∧ (∀ better < (5 : Fin 32), ∀ u ∈ demo.queue better, ¬demo.EligibleFor .A u) ∧
      demo.selection .A = some 2 ∧ idle.selection .A = none := by
  refine ⟨⟨[], [], by decide +kernel, eligible_iff _ _ _ |>.1 (by decide +kernel), by simp⟩, ?_, by decide +kernel,
    by decide +kernel⟩
  have h : ∀ better < (5 : Fin 32), ∀ u ∈ demo.queue better, demo.eligible .A u = false := by decide +kernel
  intro b hb u hu k
  rw [← eligible_iff, h b hb u hu] at k
  cases k

/-- No candidate; A alone; B alone; both: an IDLE port against a task, two IDLE ports, and each order of two nexts. -/
theorem witness_choosePort :
    let nexts := fun a b => { demo with tasks := ((demo.tasks.set 0 (taskOf .running a)).set 1 (taskOf .running b)) }
    (demo.isCandidate 2 .A = false ∧ demo.isCandidate 2 .B = false) ∧
      ((nexts 6 5).isCandidate 2 .A = true ∧ (nexts 6 5).isCandidate 2 .B = false) ∧
      ((nexts 5 6).isCandidate 2 .A = false ∧ (nexts 5 6).choosePort 2 = some .B) ∧
      ((nexts 7 6).isCandidate 2 .A = true ∧ (nexts 7 6).isCandidate 2 .B = true ∧ (nexts 7 6).choosePort 2 = some .A) ∧
      (nexts 6 7).choosePort 2 = some .B ∧ (nexts 6 6).choosePort 2 = some .A ∧
      ({ nexts 6 6 with portB := idle.portB }.next .A ≠ none ∧
        { nexts 6 6 with portB := idle.portB }.next .B = none ∧
        { nexts 6 6 with portB := idle.portB }.choosePort 2 = some .B) ∧
      (idle.next .A = none ∧ idle.next .B = none ∧ idle.choosePort 2 = some .A) := by decide +kernel

/-- Placement on a port that is SETTLED and IDLE, SETTLED with a task, in a SWITCH offer to IDLE and to a task, and in a
CONTINUE offer with and without a task; and without a candidate. -/
theorem witness_placement :
    demo.choosePort 2 = none ∧ idle.choosePort 2 = some .A ∧ (ranked 4).choosePort 2 = some .A ∧
      ((ranked 4).port .A).occ.occupant = some 0 ∧
      (let s := offering .A .switchTask none (some .readyHead) (ranked 4);
        s.choosePort 2 = some .A ∧ (s.port .A).occ.offer ≠ none) ∧
      (let s := offering .A .switchTask (some 3) (some .wait) (ranked 4);
        s.choosePort 2 = some .A ∧ s.displacedBy .A = some 3) ∧
      (let s := offering .A .continueTask (some 0) (some .stay) (ranked 4);
        s.choosePort 2 = some .A ∧ s.displacedBy .A = none) ∧
      (let s := offering .A .continueTask none none idle;
        s.choosePort 2 = some .A ∧ (s.port .A).occ.occupant = none) := by decide +kernel

/-- The re-decision of a DISABLED port, and of a SETTLED one: IDLE without and with a selection; a task that stays against no
selection, one of its own level and a more urgent one; a task that leaves, without and with a selection. -/
theorem witness_redecideSettled :
    let leaving := (ranked 6).updOcc .A fun o => { o with disposition := some .wait }
    (resetPort.lifecycle = .disabled ∧ (idle.port .A).lifecycle = .enabled) ∧
      (idle.selection .A = none ∧ (idle.port .A).occ.occupant = none) ∧
      { ranked 6 with portA := idle.portA }.selection .A = some 2 ∧
      ((ranked 5).selection .A = some 2 ∧ ((ranked 5).task 0).priority ≤ ((ranked 5).task 2).priority) ∧
      ((ranked 4).selection .A = some 2 ∧ ((ranked 4).task 2).priority < ((ranked 4).task 0).priority) ∧
      (leaving.selection .A = some 2 ∧ (leaving.port .A).occ.offer = none) ∧
      ((redecide .A false (ranked 5)).port .A).occ.offer = none ∧
      ((redecide .A false (ranked 4)).port .A).occ.disposition = some .readyTail ∧
      ((redecide .A false leaving).port .A).occ.offer.isSome = true := by decide +kernel

/-- A SWITCH offer on port A of slot 4 of level `y`, with slot 3 READY at level `s`; slot 1 of level 5 departs. -/
def offered (d : Disposition) (y s : Fin 32) : State :=
  offering .A .switchTask (some 3) (some d) { ranked s with tasks := (ranked s).tasks.set 3 (taskOf .selected y) }

/-- Does a re-decision of port A leave it with an offer of this kind and incoming, and its occupant with this
disposition? -/
def decides (gone : Bool) (s : State) (k : OfferKind) (y : Option Slot) (d : Option Disposition) : Bool :=
  let occ := ((redecide .A gone s).port .A).occ
  (occ.offer.any fun o => o.kind == k && o.incoming == y) && occ.disposition == d

/-- The re-decision of an OFFERED port. With occupant slot 1 of level 5 that stays (READY_TAIL), incoming slot 4 of level `y`
and selection slot 3 of level `s`: the occupant wins ties, then the incoming, then the selection. -/
theorem witness_redecideOffered :
    decides false (offered .readyTail 5 5) .continueTask (some 0)
        (some .stay) = true ∧
      decides false (offered .readyTail 4 4) .switchTask (some 3)
        (some .readyTail) = true ∧
      decides false (offered .readyTail 5 4) .switchTask (some 2)
        (some .readyTail) = true ∧
      decides false (offered .wait 6 6) .switchTask (some 3)
        (some .wait) = true ∧
      decides false (offered .wait 6 5) .switchTask (some 2)
        (some .wait) = true ∧
      decides true (offered .readyTail 5 5) .continueTask (some 0)
        (some .stay) = true ∧
      decides true (offered .readyTail 5 4) .switchTask (some 2)
        (some .readyTail) = true ∧
      decides true (offered .held 5 6) .switchTask (some 2)
        (some .held) = true := by decide +kernel

/-- The same of a CONTINUE offer of slot 1, of one whose disposition is HELD, and of one of IDLE. -/
theorem witness_redecideContinue :
    decides false (offering .A .continueTask (some 0) (some .stay) (ranked 5)) .continueTask (some 0)
        (some .stay) = true ∧
      decides false (offering .A .continueTask (some 0) (some .stay) (ranked 4)) .switchTask (some 2)
        (some .readyTail) = true ∧
      decides false (offering .A .continueTask (some 0) (some .held) (ranked 6)) .switchTask (some 2)
        (some .held) = true ∧
      decides false (offering .A .continueTask none none { ranked 6 with portA := idle.portA }) .switchTask (some 2)
        (none) = true := by decide +kernel

/-! ### Waits -/

/-- A WAITING task of each kind with its object, without and with the hold flag; and a departing occupant with WAIT. -/
theorem witness_endOfAWait :
    let departing := (switching .wait).updTask 0 fun r => { r with wait := some ⟨.delay, none⟩ }
    ((demo.task 5).wait = some ⟨.delay, some 1⟩ ∧ (demo.task 5).state = .waiting ∧ (demo.task 5).holdFlag = false) ∧
      ((demo.task 6).wait = some ⟨.recv 1 1 3, none⟩ ∧ (1 : Byte).toNat % 32 = (0 : Fin 16).val + 1) ∧
      (demo.task 7).wait = some ⟨.send 1 ⟨2, 7, 0x8000⟩, none⟩ ∧ (demo.task 8).wait = some ⟨.acquire 2, none⟩ ∧
      (demo.task 9).wait = some ⟨.event 0, none⟩ ∧ (demo.task 10).wait = some ⟨.pages 6, none⟩ ∧
      ((departing.task 0).state = .running ∧ (departing.port .A).occ.disposition = some .wait ∧
        (departing.port .A).occ.occupant = some 0 ∧ (departing.port .B).occ.occupant ≠ some 0) ∧
      ((endWait 5 .timeout demo).task 5).state = .ready ∧
      ((endWait 5 .timeout (demo.updTask 5 fun r => { r with holdFlag := true })).task 5).state = .held ∧
      ((endWait 0 .timeout departing).port .A).occ.disposition = some .stay := by decide +kernel

/-- The lists before an insertion are in order, and equal keys stand ahead of the new entry. -/
theorem witness_listOrders :
    insertEntry 0 ⟨9, 2⟩ [⟨1, 1⟩, ⟨2, 2⟩, ⟨3, 3⟩] = [⟨1, 1⟩, ⟨2, 2⟩, ⟨9, 2⟩, ⟨3, 3⟩] ∧
      insertEntry 0xFFFFFFFF ⟨9, 1⟩ [⟨1, 0⟩] = [⟨1, 0⟩, ⟨9, 1⟩] ∧
      insertWaiter demo .urgency 2 [0, 5] = [0, 2, 5] ∧ insertWaiter demo .arrival 2 [0, 5] = [0, 5, 2] ∧
      (let s := (demo.updTask 6 fun r => { r with wait := some ⟨.recv 3 0 9, none⟩, priority := 5 }).setExchange 2
          (.message .urgency ⟨2, [], [5, 6], []⟩);
        (s.task 6).wait = some ⟨.recv 3 0 9, none⟩ ∧ (3 : Byte).toNat % 32 = (2 : Fin 16).val + 1 ∧
          ((repositionWaiter 6 s).exchange 2).state = .message .urgency ⟨2, [], [6, 5], []⟩) := by decide +kernel

/-! ### The task commands -/

/-- The state after a command submitted on port A is taken. -/
def result (c : CommandCode) (params : List Byte) (s : State) : State := after (c.row .A) (submit .A c params s)

/-- The offer of port B of the CONTINUE kind for its occupant, and a SWITCH offer of port B with a disposition. -/
def departingB (d : Disposition) : State := offering .B .switchTask none (some d) demo

/-- Priority 31 and 32, affinity 0 and 3; no FREE slot; the lowest FREE slot 13 with the ones before it taken. -/
theorem witness_taskCreate :
    answers .A .taskCreate [32, 3, 0, 0, 0, 0] demo 0x12 [] = true ∧
      answers .A .taskCreate [31, 0, 0, 0, 0, 0] demo 0x12 [] = true ∧
      answers .A .taskCreate [31, 3, 1, 2, 3, 4] demo 0x00 [13, 0] = true ∧
      answers .A .taskCreate [31, 3, 1, 2, 3, 4] { demo with tasks := Vector.replicate 48 (taskOf .held 1) } 0x20 [] = true ∧
      (demo.task 12).state = .free ∧ (∀ u < (12 : Slot), (demo.task u).state ≠ .free) ∧
      ((result .taskCreate [31, 3, 1, 2, 3, 4] demo).task 12).context = 0x030201 := by decide +kernel

theorem witness_taskStart :
    (demo.task 3).state = .dormant ∧ (demo.task 2).state ≠ .dormant ∧ (demo.task 2).state ≠ .free ∧
      answers .A .taskStart [4, 0] demo 0x00 [] = true ∧ answers .A .taskStart [3, 0] demo 0x15 [] = true ∧
      (result .taskStart [4, 0] demo).queue 5 = [2, 3] := by decide +kernel

/-- TASK.DELETE of a DORMANT, a HELD, a READY, a SELECTED and two WAITING tasks. -/
theorem witness_taskDelete :
    ((demo.task 3).state = .dormant ∧ (demo.task 4).state = .held ∧ (demo.task 2).state = .ready) ∧
      (((switching .readyHead).task 2).state = .selected ∧ (switching .readyHead).isIncoming .A 2 = true ∧
        (switching .readyHead).isIncoming .B 2 = false) ∧
      ((demo.task 10).state = .waiting ∧ demo.pool.waitQueue.head? = some 10 ∧ (demo.task 5).state = .waiting) ∧
      ((result .taskDelete [3, 0] demo).task 2 = blankTask 1 ∧ (result .taskDelete [3, 0] demo).queue 5 = []) ∧
      (((result .taskDelete [3, 0] (switching .readyHead)).port .A).occ.offer.map (·.kind) = some .continueTask) ∧
      ((result .taskDelete [11, 0] demo).pool.waitQueue = [] ∧
        ((result .taskDelete [11, 0] demo).task 11).delivery = some (.ok (.page 4))) := by decide +kernel

/-- TASK.DELETE of a RUNNING task, departing with WAIT and not; TASK.EXIT. -/
theorem witness_doom :
    ((demo.task 1).state = .running ∧ (demo.port .B).occ.occupant = some 1 ∧ (demo.port .A).occ.occupant ≠ some 1) ∧
      ((demo.port .B).occ.disposition ≠ some .wait ∧ ((departingB .wait).port .B).occ.disposition = some .wait) ∧
      (let u := result .taskDelete [2, 0] demo
       (u.task 1).doomed = true ∧ (u.task 1).generation = 1 ∧ (u.port .B).occ.disposition = some .free) ∧
      (let u := result .taskExit [] demo
       (u.task 0).doomed = true ∧ (u.port .A).occ.disposition = some .free ∧ (u.port .A).unit.res = 0) := by decide +kernel

/-- Slot 2, RUNNING on port B and departing with FREE, is doomed; its current handle is 42h 00h. -/
def dooming : State :=
  (offering .B .switchTask none (some .free) demo).updTask 1 fun r => { r with doomed := true, generation := 1 }

/-- Every command that takes a handle refuses the current one of a doomed task STALE_HANDLE, PAGE.GIVE among them; PAGE.QUERY
and PAGE.RECLAIM report that handle. -/
theorem witness_doomedHandle :
    let owning := { dooming with pool := ({ resetPool with size := 8, freePages := 8 }.createRun 0 0 4 1) }
    halfBytes (dooming.handle 1) = [0x42, 0] ∧ (dooming.task 1).doomed = true ∧
      answers .A .taskStart [0x42, 0] dooming 0x13 [] = true ∧ answers .A .taskDelete [0x42, 0] dooming 0x13 [] = true ∧
      answers .A .taskHold [0x42, 0] dooming 0x13 [] = true ∧ answers .A .taskRelease [0x42, 0] dooming 0x13 [] = true ∧
      answers .A .taskSetpri [0x42, 0, 5] dooming 0x13 [] = true ∧
      answers .A .taskSetaff [0x42, 0, 1] dooming 0x13 [] = true ∧
      answers .A .taskSetctx [0x42, 0, 1, 2, 3] dooming 0x13 [] = true ∧
      answers .A .taskQuery [0x42, 0] dooming 0x13 [] = true ∧ answers .A .pageGive [0, 0x42, 0] dooming 0x13 [] = true ∧
      answers .A .pageQuery [0] owning 0x00 [2, 0x42, 0, 0, 4, 4, 63, 0] = true ∧
      answers .A .pageReclaim [0] owning 0x00 [0x42, 0, 4, 0] = true := by decide +kernel

/-- R24, fifth row: slot 1, preempted by slot 3, is deleted before the accept of sequence 0 arrives. The offer is revised with
the same incoming, that accept is refused STALE, and the accept of the new sequence frees the slot. A revision to another
incoming and the one of a CONTINUE offer take a new sequence too. TASK.EXIT of slot 1 leaves the offer as it stands (R56, first
row), and the accept of sequence 0 frees the slot. -/
theorem witness_doomRevises :
    let u := result .taskDelete [1, 0] (switching .readyHead)
    let sequenceOf := fun v : State => (v.port .A).occ.offer.map (·.sequence)
    (u.port .A).occ.offer.map (fun o => (o.kind, o.incoming)) = some (.switchTask, some 2) ∧ sequenceOf u = some 1 ∧
      (u.port .A).unit.intp.getLsbD 0 = true ∧
      ((after (.accept .A 0) u).port .A).occ.acceptStatus = .stale ∧ ((after (.accept .A 0) u).task 0).doomed = true ∧
      ((after (.accept .A 1) u).port .A).occ.acceptStatus = .accepted ∧ ((after (.accept .A 1) u).task 0).state = .free ∧
      sequenceOf (result .taskDelete [1, 0] (offered .readyHead 5 4)) = some 1 ∧
      sequenceOf (result .taskDelete [1, 0] continuing) = some 1 ∧
      sequenceOf (result .taskExit [] (switching .readyHead)) = some 0 ∧
      ((after (.accept .A 0) (result .taskExit [] (switching .readyHead))).task 0).state = .free ∧
      sequenceOf (result .taskExit [] (offered .readyHead 5 4)) = some 1 ∧
      sequenceOf (result .taskExit [] continuing) = some 1 := by decide +kernel

/-- The runs of a freed slot: slot 1 owns entry 0 and no other entry holds a run. -/
theorem witness_freedSlot :
    demo.pool.runs[(0 : Fin 64)] = some ⟨0, 4, 0⟩ ∧ demo.pool.runs[(1 : Fin 64)] = none ∧
      demo.pool.pageMap[(3 : Fin 128)] = some 0 ∧ (freeSlot 0 demo).pool.pageMap[(3 : Fin 128)] = none ∧
      (freeSlot 1 demo).pool.pageMap[(3 : Fin 128)] = some 0 ∧ (freeSlot 0 demo).pool.pageMap[(4 : Fin 128)] = none ∧
      (freeSlot 0 demo).pool.freePages = 8 ∧ (retire 0 false demo).pool.waitQueue = [] := by decide +kernel

theorem witness_taskHold :
    let flagged := demo.updTask 5 fun r => { r with holdFlag := true }
    (demo.task 5).holdFlag = false ∧ (flagged.task 5).holdFlag = true ∧
      answers .A .taskHold [4, 0] demo 0x15 [] = true ∧ answers .A .taskHold [5, 0] demo 0x15 [] = true ∧
      answers .A .taskHold [6, 0] flagged 0x15 [] = true ∧
      answers .A .taskHold [2, 0] (departingB .held) 0x15 [] = true ∧
      ((result .taskHold [3, 0] demo).task 2).state = .held ∧ ((result .taskHold [6, 0] demo).task 5).holdFlag = true :=
  by decide +kernel

theorem witness_taskHold_running :
    ((result .taskHold [3, 0] (switching .readyTail)).task 2).state = .held ∧
      ((result .taskHold [2, 0] demo).port .B).occ.disposition = some .held ∧
      ((result .taskHold [2, 0] (departingB .readyHead)).port .B).occ.disposition = some .held ∧
      ((result .taskHold [2, 0] (departingB .wait)).task 1).holdFlag = true ∧
      answers .A .taskHold [2, 0] ((departingB .wait).updTask 1 fun r => { r with holdFlag := true }) 0x15 [] = true := by
  decide +kernel

theorem witness_taskRelease :
    answers .A .taskRelease [3, 0] demo 0x15 [] = true ∧ answers .A .taskRelease [6, 0] demo 0x15 [] = true ∧
      (result .taskRelease [5, 0] demo).queue 5 = [2, 4] ∧
      ((result .taskRelease [6, 0] (demo.updTask 5 fun r => { r with holdFlag := true })).task 5).holdFlag = false ∧
      ((result .taskRelease [2, 0] (departingB .held)).port .B).occ.disposition = some .stay ∧
      answers .A .taskRelease [2, 0] demo 0x15 [] = true ∧ answers .A .taskRelease [2, 0] (departingB .wait) 0x15 [] = true ∧
      ((result .taskRelease [2, 0] ((departingB .wait).updTask 1 fun r => { r with holdFlag := true })).task 1).holdFlag =
        false := by decide +kernel

/-- TASK.SETPRI to 32, to the same priority, and of a task in each state to a more and a less urgent one. -/
theorem witness_taskSetpri :
    answers .A .taskSetpri [3, 0, 32] demo 0x12 [] = true ∧ answers .A .taskSetpri [3, 0, 5] demo 0x00 [] = true ∧
      ((result .taskSetpri [4, 0, 31] demo).task 3).priority = 31 ∧
      (result .taskSetpri [3, 0, 31] demo).queue 31 = [2] ∧
      ((result .taskSetpri [3, 0, 31] (switching .readyTail)).port .A).occ.offer.map (·.kind) = some .continueTask ∧
      ((result .taskSetpri [3, 0, 4] (switching .readyTail)).port .A).occ.offer.map (·.kind) = some .switchTask ∧
      ((result .taskSetpri [6, 0, 0] demo).task 5).priority = 0 := by decide +kernel

theorem witness_taskSetpri_running :
    ((result .taskSetpri [2, 0, 31] demo).port .B).occ.disposition = some .readyTail ∧
      ((result .taskSetpri [2, 0, 4] demo).port .B).occ.offer = none ∧
      ((result .taskSetpri [1, 0, 4] (switching .readyHead)).port .A).occ.disposition = some .stay ∧
      ((result .taskSetpri [1, 0, 31] continuing).port .A).occ.disposition = some .readyTail ∧
      ((result .taskSetpri [1, 0, 4] (switching .wait)).port .A).occ.disposition = some .wait ∧
      ((result .taskSetpri [1, 0, 4] (switching .held)).port .A).occ.disposition = some .held := by decide +kernel

theorem witness_taskSetaff :
    answers .A .taskSetaff [3, 0, 0] demo 0x12 [] = true ∧ answers .A .taskSetaff [3, 0, 4] demo 0x12 [] = true ∧
      answers .A .taskSetaff [1, 0, 1] demo 0x15 [] = true ∧
      answers .A .taskSetaff [3, 0, 1] (switching .readyHead) 0x15 [] = true ∧
      ((result .taskSetaff [4, 0, 2] demo).task 3).affinity = .portB ∧
      answers .A .taskSetaff [3, 0, 3] demo 0x00 [] = true ∧
      ((result .taskSetaff [3, 0, 1] (ranked 4)).port .A).occ.offer.map (·.incoming) = some (some 2) := by decide +kernel

theorem witness_taskSetctx :
    ((result .taskSetctx [4, 0, 1, 2, 3] demo).task 3).context = 0x030201 ∧
      ((result .taskSetctx [5, 0, 1, 2, 3] demo).task 4).context = 0x030201 ∧
      answers .A .taskSetctx [3, 0, 1, 2, 3] demo 0x15 [] = true := by decide +kernel

/-- TASK.QUERY of a RUNNING task, of HELD ones of both causes, of a SELECTED one and of WAITING ones. -/
theorem witness_taskQuery :
    answers .A .taskQuery [1, 0] demo 0x00 [4, 5, 3, 1, 0, 0, 1, 4] = true ∧
      answers .A .taskQuery [2, 0] demo 0x00 [4, 5, 3, 2, 0, 0, 0, 0] = true ∧
      answers .A .taskQuery [5, 0] demo 0x00 [6, 5, 3, 1, 0, 0, 0, 0] = true ∧
      answers .A .taskQuery [5, 0] (demo.updTask 4 fun r => { r with holdCause := some .portLost }) 0x00
        [6, 5, 3, 2, 0, 0, 0, 0] = true ∧
      answers .A .taskQuery [3, 0] (switching .wait) 0x00 [3, 5, 3, 1, 0, 0, 0, 0] = true ∧
      answers .A .taskQuery [7, 0] demo 0x00 [5, 6, 3, 0, 2, 1, 0, 0] = true ∧
      answers .A .taskQuery [11, 0] demo 0x00 [5, 6, 3, 0, 6, 6, 0, 0] = true ∧
      answers .A .taskQuery [3, 0] demo 0x00 [2, 5, 3, 0, 0, 0, 0, 0] = true := by decide +kernel

/-- TASK.YIELD with slot 3 as F, on a SETTLED port and with each disposition it may have, and without an F. -/
theorem witness_taskYield :
    demo.FirstEligible .A (demo.task 0).priority 2 ∧ (ranked 6).firstPeer .A 0 = none ∧
      ((result .taskYield [] demo).port .A).occ.disposition = some .readyTail ∧
      ((result .taskYield [] (ranked 6)).port .A).occ.offer = none ∧
      ((result .taskYield [] continuing).port .A).occ.disposition = some .readyTail ∧
      (let preempted := offered .readyHead 4 5
       preempted.IsCaller .A 0 ∧ preempted.firstPeer .A 0 = some 2 ∧
         ((result .taskYield [] preempted).port .A).occ.disposition = some .readyTail ∧
         ((result .taskYield [] preempted).port .A).occ.offer.map (·.incoming) = some (some 3) ∧
         ((result .taskYield [] (offered .readyHead 4 6)).port .A).occ.disposition = some .readyHead) ∧
      (let behind := offered .readyTail 4 5
       behind.IsCaller .A 0 ∧ behind.firstPeer .A 0 = some 2 ∧ answers .A .taskYield [] behind 0x00 [] = true ∧
         (result .taskYield [] behind).portA.occ = behind.portA.occ) := by
  refine ⟨firstPeer_eq_some.1 (by decide +kernel), by decide +kernel, by decide +kernel, by decide +kernel, by decide +kernel,
    ⟨⟨?_, ?_, ?_, ?_⟩, ?_⟩, ⟨?_, ?_, ?_, ?_⟩, ?_⟩ <;>
    decide +kernel

/-- TASK.DELAY of 0 and of 65535 ticks. -/
theorem witness_taskDelay :
    answers .A .taskDelay [0, 0] demo 0x12 [] = true ∧ answers .A .taskDelay [0xFF, 0xFF] demo 0x01 [] = true ∧
      (result .taskDelay [0xFF, 0xFF] demo).time.timers = [⟨5, 1⟩, ⟨0, 0xFFFF⟩] := by decide +kernel

/-! ### Accepts -/

/-- An accept while BUSY, with no offer, of a stale value and of the posted one. -/
theorem witness_acceptChecks :
    let status := fun v s => ((after (.accept .A v) s).port .A).occ.acceptStatus
    ((submit .A .timeRead [] demo).port .A).unit.command ≠ none ∧ (demo.port .A).occ.offer = none ∧
      ((switching .wait).port .A).occ.offer.map (·.sequence) = some 0 ∧ ((switching .wait).port .A).unit.command = none ∧
      status 0 (submit .A .timeRead [] (switching .wait)) = .busyRefused ∧ status 0 demo = .stale ∧
      status 1 (switching .wait) = .stale ∧ status 0 (switching .wait) = .accepted := by decide +kernel

/-- Each disposition at the accept of a SWITCH offer. -/
theorem witness_acceptSwitch :
    let u := fun d => after (.accept .A 0) (switching d)
    ((u .readyHead).task 0).state = .ready ∧ ((u .readyTail).task 0).state = .ready ∧
      ((u .wait).task 0).state = .waiting ∧ ((u .held).task 0).state = .held ∧ ((u .free).task 0).state = .free ∧
      ((u .wait).task 2).remaining = 2 ∧ ((u .wait).port .A).occ.occupant = some 2 ∧
      ((after (.accept .A 0) (offering .A .switchTask none none idle)).port .A).occ.offer = none := by decide +kernel

theorem witness_acceptContinue :
    (continuing.port .A).occ.occupant = some 0 ∧ (continuing.task 0).state = .running ∧
      ((after (.accept .A 0) continuing).task 0).remaining = 2 ∧
      ((after (.accept .A 0) continuing).port .A).occ.offer = none ∧
      ((after (.accept .A 0) (offering .A .continueTask none none idle)).port .A).occ.acceptStatus = .accepted := by
  decide +kernel

/-! ### The exchange commands -/

/-- XCH.OPEN at the bounds: size 16 and 17, 0, an initial count above the ceiling; with too few cells; with every record
OPEN; the lowest CLOSED record is the fifth. -/
theorem witness_xchOpen :
    answers .A .xchOpen [1, 1, 17, 0] demo 0x12 [] = true ∧ answers .A .xchOpen [1, 3, 16, 0] demo 0x12 [] = true ∧
      answers .A .xchOpen [2, 1, 1, 2] demo 0x12 [] = true ∧ answers .A .xchOpen [2, 1, 0, 0] demo 0x12 [] = true ∧
      answers .A .xchOpen [1, 1, 16, 0] { demo with freeCells := 15 } 0x21 [] = true ∧
      answers .A .xchOpen [1, 1, 16, 0] { demo with freeCells := 16 } 0x00 [5] = true ∧
      answers .A .xchOpen [2, 2, 255, 255] demo 0x00 [5] = true := by decide +kernel

theorem witness_xchOpen_records :
    (demo.exchange 4).state = .closed ∧ (∀ y < (4 : Fin 16), (demo.exchange y).state ≠ .closed) ∧
      WaiterOrder.arrival.code = 1 ∧
      answers .A .xchOpen [2, 1, 1, 0]
        { demo with exchanges := Vector.replicate 16 ⟨0, .count .arrival ⟨1, 0, []⟩⟩ } 0x22 [] = true := by decide +kernel

/-- XCH.CLOSE of a MESSAGE and of a COUNT exchange: two waiters and one message, and one waiter. -/
theorem witness_xchClose :
    demo.exchangeId 0 = 1 ∧ demo.exchangeId 1 = 2 ∧
      (demo.exchange 0).state = .message .arrival ⟨1, [⟨9, 5, 0x8001⟩], [6], [7]⟩ ∧
      (demo.exchange 1).state = .count .arrival ⟨1, 0, [8]⟩ ∧
      answers .A .xchClose [1] demo 0x00 [2, 1] = true ∧ answers .A .xchClose [2] demo 0x00 [1, 0] = true ∧
      (result .xchClose [1] demo).freeCells = 62 ∧ (result .xchClose [1] demo).exchange 0 = ⟨1, .closed⟩ ∧
      ((result .xchClose [1] demo).task 7).delivery = some .closed := by decide +kernel

theorem witness_xchQuery :
    answers .A .xchQuery [1] demo 0x00 [1, 1, 1, 1, 1, 1, 61] = true ∧
      answers .A .xchQuery [2] demo 0x00 [2, 1, 1, 0, 1, 0, 61] = true := by decide +kernel

/-- MSG.SEND to a COUNT, to a matching receiver, into a queue with room, refused FULL, and waiting. -/
theorem witness_msgSend :
    answers .A .msgSend [2, 0, 0, 0, 0, 0, 0] demo 0x16 [] = true ∧
      answers .A .msgSend [1, 3, 7, 8, 0, 0, 0] demo 0x00 [1] = true ∧
      ((result .msgSend [1, 3, 7, 8, 0, 0, 0] demo).task 6).delivery = some (.ok (.message ⟨3, 0x0807, 0x0001⟩)) ∧
      answers .A .msgSend [3, 3, 7, 8, 0, 0, 0] demo 0x00 [2] = true ∧
      answers .A .msgSend [1, 4, 7, 8, 0, 0, 0] demo 0x23 [] = true ∧
      answers .A .msgSend [1, 4, 7, 8, 2, 1, 0] demo 0x01 [] = true ∧
      (∃ id low high d, (demo.task 6).wait = some ⟨.recv id low high, d⟩ ∧ low.toNat ≤ (3 : Byte).toNat ∧
        (3 : Byte).toNat ≤ high.toNat) := by
  refine ⟨?_, ?_, ?_, ?_, ?_, ?_, 1, 1, 3, none, ?_⟩ <;> decide +kernel

/-- MSG.RECV with an empty range, at a COUNT, of a queued message with a refill, refused EMPTY, and waiting. -/
theorem witness_msgRecv :
    answers .A .msgRecv [1, 5, 4, 0, 0, 0] demo 0x12 [] = true ∧ answers .A .msgRecv [2, 0, 0, 0, 0, 0] demo 0x16 [] = true ∧
      answers .A .msgRecv [1, 9, 9, 0, 0, 0] demo 0x00 [9, 5, 0, 1, 0x80] = true ∧
      ((result .msgRecv [1, 9, 9, 0, 0, 0] demo).task 6).delivery = some (.ok (.message ⟨2, 7, 0x8000⟩)) ∧
      ((result .msgRecv [1, 9, 9, 0, 0, 0] demo).task 7).delivery = some (.ok .none) ∧
      answers .A .msgRecv [1, 0, 8, 0, 0, 0] demo 0x24 [] = true ∧ answers .A .msgRecv [1, 0, 8, 1, 0, 0] demo 0x01 [] = true := by
  decide +kernel

/-- Refill with a full queue, with no sender, and with room and a sender; a matching receiver, and none. -/
theorem witness_refill :
    let b : Mailbox := ⟨1, [], [6], [7]⟩
    let s := demo.setExchange 0 (.message .arrival b)
    ((demo.exchange 0).state = .message .arrival ⟨1, [⟨9, 5, 0x8001⟩], [6], [7]⟩ ∧
      (demo.exchange 2).state = .message .urgency ⟨2, [], [], []⟩) ∧
      ((s.exchange 0).state = .message .arrival b ∧ b.queue.length < b.capacity ∧
        (s.task 7).wait = some ⟨.send 1 ⟨2, 7, 0x8000⟩, none⟩) ∧
      s.filterMatches 3 6 = true ∧ s.filterMatches 4 6 = false ∧
      ((refill 0 s).task 6).delivery = some (.ok (.message ⟨2, 7, 0x8000⟩)) := by decide +kernel

theorem witness_cntAcquire :
    answers .A .cntAcquire [1, 0, 0, 0] demo 0x16 [] = true ∧ answers .A .cntAcquire [4, 0, 0, 0] demo 0x00 [0] = true ∧
      answers .A .cntAcquire [2, 0, 0, 0] demo 0x24 [] = true ∧ answers .A .cntAcquire [2, 1, 0, 0] demo 0x01 [] = true ∧
      ((result .cntAcquire [2, 1, 0, 0] demo).exchange 1).state = .count .arrival ⟨1, 0, [8, 0]⟩ := by decide +kernel

/-- CNT.RELEASE of a MESSAGE exchange, with an acquirer, below the ceiling and at it. -/
theorem witness_cntRelease :
    answers .A .cntRelease [1] demo 0x16 [] = true ∧ answers .A .cntRelease [2] demo 0x00 [1, 0] = true ∧
      answers .A .cntRelease [2] (demo.setExchange 1 (.count .arrival ⟨1, 0, []⟩)) 0x00 [2, 1] = true ∧
      answers .A .cntRelease [4] demo 0x25 [] = true := by decide +kernel

/-! ### The event lines -/

/-- EVT.CONFIG at the bounds: line 7 and 8, edge mode 3 and 4, release mode 0 and 2; the byte codes are those of modes. -/
theorem witness_evtConfig :
    answers .A .evtConfig [8, 0, 1] demo 0x12 [] = true ∧ answers .A .evtConfig [7, 4, 1] demo 0x12 [] = true ∧
      answers .A .evtConfig [7, 3, 0] demo 0x12 [] = true ∧ EdgeMode.both.code = 3 ∧ ReleaseMode.all.code = 2 ∧
      answers .A .evtConfig [7, 3, 2]
        (demo.updLine 7 fun r => { r with latch := 15, saturated := true }) 0x00 [15, 1] = true ∧
      ((result .evtConfig [7, 3, 2] demo).line 7).releaseMode = .all := by decide +kernel

/-- EVT.QUERY of lines 7 and 8, sampled; the level of a line not sampled is a free value. -/
theorem witness_evtQuery :
    answers .A .evtQuery [8] demo 0x12 [] = true ∧ answers .A .evtQuery [0] demo 0x00 [0, 3, 1, 0, 0, 1] = true ∧
      (demo.line 0).sampled = true ∧ (demo.line 7).sampled = false ∧
      (result .evtQuery [7] (demo.updLine 7 fun r => { r with saturated := true })).draws = 1 := by decide +kernel

theorem witness_evtWait :
    answers .A .evtWait [8, 0, 0, 0] demo 0x12 [] = true ∧
      answers .A .evtWait [7, 0, 0, 0] (demo.updLine 7 fun r => { r with latch := 1 }) 0x00 [0] = true ∧
      answers .A .evtWait [7, 0, 0, 0] demo 0x24 [] = true ∧ answers .A .evtWait [7, 1, 0, 0] demo 0x01 [] = true ∧
      ((result .evtWait [7, 1, 0, 0] demo).line 7).waiters = [0] := by decide +kernel

/-- An edge under RST; one that the mode does not admit; the 15th and the 16th latched; a release of ONE and of ALL. -/
theorem witness_lineEvent :
    let latched := fun n => demo.updLine 7 fun r => { r with edgeMode := .fall, latch := n }
    let two := fun m => demo.updLine 0 fun r => { r with waiters := [9, 5], releaseMode := m }
    after (.lineEvent 0 .rising) { demo with rst := true } = { demo with rst := true } ∧
      ((after (.lineEvent 7 .rising) (latched 0)).line 7).latch = 0 ∧
      ((after (.lineEvent 7 .falling) (latched 14)).line 7).latch = 15 ∧
      ((after (.lineEvent 7 .falling) (latched 15)).line 7).saturated = true ∧
      ((after (.lineEvent 0 .rising) (two .one)).line 0).waiters = [5] ∧
      ((after (.lineEvent 0 .rising) (two .all)).line 0).waiters = [] := by decide +kernel

/-- A line at its first sample, at a first and at a second differing sample, and at a sample that agrees again. -/
theorem witness_lineSample :
    let pend := demo.updLine 0 fun r => { r with pendingCount := true }
    (((demo.line 7).sampled = false ∧ (demo.line 0).sampled = true) ∧ (pend.line 0).pendingCount = true) ∧
      ((after (.lineSample 0x80) demo).line 7).settled = true ∧
      ((after (.lineSample 0x01) demo).line 0).pendingCount = true ∧
      ((after (.lineSample 0x00) pend).line 0).pendingCount = false ∧
      ((after (.lineSample 0x01) pend).line 0).settled = true ∧ ((after (.lineSample 0x01) pend).line 0).waiters = [] := by
  decide +kernel

/-! ### The Page Pool -/

/-- First fit at its bounds, a run table with a free entry and without, and a queue whose head can and cannot be granted. -/
theorem witness_serving :
    demo.pool.firstFit 4 = some 4 ∧ demo.pool.firstFit 5 = none ∧ resetPool.firstFit 128 = some 0 ∧
      demo.pool.freeEntry = some 1 ∧
      ({ resetPool with runs := Vector.replicate 64 (some ⟨0, 1, 0⟩) } : PagePool).freeEntry = none ∧
      demo.askedPages 10 = 6 ∧ (serveCount demo).2 = 0 ∧
      (serveCount { demo with pool := { resetPool with size := 8, waitQueue := [10, 11] } }).2 = 2 := by decide +kernel

/-- `demo` with no request waiting. -/
def noQueue : State := { demo with pool := { demo.pool with waitQueue := [] } }

/-- PAGE.ALLOC of 0, 33 and more pages than the pool; granted; refused NO_PAGES and NO_RUNS; waiting. -/
theorem witness_pageAlloc :
    answers .A .pageAlloc [0, 0, 0, 0] noQueue 0x12 [] = true ∧ answers .A .pageAlloc [33, 0, 0, 0] noQueue 0x12 [] = true ∧
      answers .A .pageAlloc [9, 0, 0, 0] noQueue 0x12 [] = true ∧ answers .A .pageAlloc [4, 0, 0, 0] noQueue 0x00 [4] = true ∧
      answers .A .pageAlloc [8, 0, 0, 0] noQueue 0x26 [] = true ∧ answers .A .pageAlloc [1, 0, 0, 0] demo 0x26 [] = true ∧
      answers .A .pageAlloc [1, 0, 0, 0]
        { noQueue with pool := { noQueue.pool with runs := Vector.replicate 64 (some ⟨0, 1, 0⟩) } } 0x27 [] = true ∧
      answers .A .pageAlloc [1, 1, 0, 0] demo 0x01 [] = true := by decide +kernel

/-- PAGE.FREE outside the pool, at no first page, of another's run and of the caller's, whose freeing grants a request. -/
theorem witness_pageFree :
    answers .A .pageFree [8] demo 0x12 [] = true ∧ answers .A .pageFree [1] demo 0x29 [] = true ∧
      answers .B .pageFree [0] demo 0x28 [] = true ∧ answers .A .pageFree [0] demo 0x00 [4, 2] = true ∧
      ((result .pageFree [0] demo).task 10).delivery = some (.ok (.page 0)) ∧
      (result .pageFree [0] demo).pool.freePages = 0 := by decide +kernel

theorem witness_pageReclaim :
    answers .A .pageReclaim [8] demo 0x12 [] = true ∧ answers .A .pageReclaim [7] demo 0x29 [] = true ∧
      answers .B .pageReclaim [0] demo 0x00 [1, 0, 4, 2] = true ∧
      (∀ (f : Fin 64) (q : Run), demo.pool.runs[f] = some q → q.first = (0 : Byte).toNat → f = 0) := by
  refine ⟨by decide +kernel, by decide +kernel, by decide +kernel, ?_⟩
  have h : ∀ f : Fin 64, f ≠ 0 → demo.pool.runs[f] = none := by decide +kernel
  intro f q hq _
  by_contra k
  rw [h f k] at hq
  cases hq

theorem witness_pageGive :
    answers .A .pageGive [8, 2, 0] demo 0x12 [] = true ∧ answers .A .pageGive [7, 0, 0] demo 0x12 [] = true ∧
      answers .A .pageGive [0, 0x42, 0] demo 0x13 [] = true ∧ answers .A .pageGive [0, 13, 0] demo 0x13 [] = true ∧
      answers .A .pageGive [1, 2, 0] demo 0x29 [] = true ∧ answers .B .pageGive [0, 1, 0] demo 0x28 [] = true ∧
      answers .A .pageGive [0, 2, 0] demo 0x00 [] = true ∧
      (result .pageGive [0, 2, 0] demo).pool.runs[(0 : Fin 64)] = some ⟨0, 4, 1⟩ := by decide +kernel

theorem witness_pageQuery :
    answers .A .pageQuery [8] demo 0x12 [] = true ∧
      answers .A .pageQuery [7] demo 0x00 [0, 0, 0, 0, 0, 4, 63, 2] = true ∧
      answers .A .pageQuery [3] demo 0x00 [1, 1, 0, 0, 4, 4, 63, 2] = true ∧
      answers .A .pageQuery [3] (demo.updTask 0 fun r => { r with doomed := true }) 0x00 [2, 1, 0, 0, 4, 4, 63, 2] = true ∧
      demo.pool.entryOf 7 = none ∧ demo.pool.entryOf 3 = some 0 := by decide +kernel

theorem witness_pageConfig :
    answers .A .pageConfig [0] idle 0x12 [] = true ∧ answers .A .pageConfig [129] idle 0x12 [] = true ∧
      answers .A .pageConfig [128] idle 0x00 [128] = true ∧ answers .A .pageConfig [1] idle 0x00 [128] = true ∧
      answers .A .pageConfig [1] demo 0x15 [] = true ∧ (result .pageConfig [1] idle).pool.freePages = 1 := by decide +kernel

/-! ### Time -/

theorem witness_time :
    answers .A .timeConfig [0, 0] demo 0x12 [] = true ∧ answers .A .timeConfig [0x11, 0x27] demo 0x12 [] = true ∧
      answers .A .timeConfig [0x10, 0x27] demo 0x00 [100, 0] = true ∧ answers .A .timeConfig [1, 0] demo 0x00 [100, 0] = true ∧
      (result .timeConfig [0x10, 0x27] demo).time.storedN = 10000 ∧
      answers .A .timeRead [] { demo with time := { resetTime with counter := 0x04030201 } } 0x00 [1, 2, 3, 4] = true := by
  decide +kernel

/-- `demo` at tick 1, when the delay of slot 6 is due. -/
def due : State := { demo with time := { demo.time with counter := 1 } }

/-- An entry that is due and one that is not; a head of the page-wait queue that times out, whose successor is served. -/
theorem witness_expiry :
    (⟨5, due.time.counter⟩ : TimerEntry) ∈ due.time.timers ∧ (⟨5, demo.time.counter⟩ : TimerEntry) ∉ demo.time.timers ∧
      (due.task 5).wait = some ⟨.delay, some 1⟩ ∧
      ((after (.expiry 5) due).task 5).delivery = some (.ok .none) ∧ after (.expiry 5) demo = demo ∧
      (let s := after (.expiry 10) { due with time := { due.time with timers := [⟨10, 1⟩] } }
       (s.task 10).delivery = some .timeout ∧ (s.task 11).delivery = some (.ok (.page 4))) := by decide +kernel

/-- A port that is counted with 1 tick remaining and with 2, with a peer at its level and without; one that is not counted;
and a tick, at which the delay of slot 6 ends and only port A's slice ends. -/
theorem witness_tick :
    ((demo.port .A).occ.offer = none ∧ (demo.port .A).occ.occupant = some 0 ∧ (demo.task 0).quantum ≠ 0 ∧
      (demo.task 0).remaining = 1) ∧
      (idle.port .A).occ.occupant = none ∧
      ((countQuantum .A demo).port .A).occ.disposition = some .readyTail ∧
      ((countQuantum .A (ranked 6)).task 0).remaining = 2 ∧
      (let s := demo.updTask 1 fun r => { r with remaining := 2 }
       ((countQuantum .B s).task 1).remaining = 1 ∧ after (.sliceExpiry .B) s = s ∧
        ((after .tick s).task 5).delivery = some (.ok .none) ∧ (after .tick s).time.counter = 1 ∧
        ((after .tick s).port .A).occ.offer.map (·.incoming) = some (some 2)) ∧
      ((after (.sliceExpiry .A) demo).port .A).occ.offer.map (·.incoming) = some (some 2) := by decide +kernel

/-! ### Ports, loss and reset -/

theorem witness_ports :
    answers .A .portEnable [] demo 0x15 [] = true ∧ answers .A .portDrop [] State.reset 0x15 [] = true ∧
      answers .A .peerDrop [] (ranked 6) 0x15 [] = true ∧
      (let u := result .portEnable [] { demo with portA := resetPort }
       (u.port .A).occ.offer.map (·.incoming) = some (some 2) ∧ (u.port .B).unit.intp = 0b1000 ∧ (u.port .A).unit.res = 0) ∧
      (let u := result .portDrop [] demo
       (u.port .A).lifecycle = .disabled ∧ (u.port .A).unit.intp = 0 ∧ (u.port .B).unit.intp = 0b0100) ∧
      ((result .peerDrop [] demo).port .B).lifecycle = .disabled := by decide +kernel

theorem test_prst :
    ((after (.prstAssert .A) State.reset).port .A).prst = true ∧ ((after (.prstAssert .A) demo).task 0).state = .held ∧
      after (.prstRelease .A) (after (.prstAssert .A) State.reset) = State.reset := by decide +kernel

/-- The loss of a port: no occupant; a doomed one that owns runs; one that departs with HELD; one that departs with WAIT as
the head of the page-wait queue; and the incoming goes to the head of its level. -/
theorem witness_loss :
    let waiting :=
      { (switching .wait).updTask 0 (fun r => { r with wait := some ⟨.pages 9, none⟩ }) with
        pool := { demo.pool with waitQueue := [0, 11] } }
    ((idle.port .A).occ.occupant = none ∧ demo.pool.runsOf 0 ≠ []) ∧
      ((losePortWhole .A ((switching .free).updTask 0 fun r => { r with doomed := true })).task 10).delivery =
        some (.ok (.page 0)) ∧
      ((losePortWhole .A (switching .held)).task 0).holdCause = some .portLost ∧
      ((losePortWhole .A waiting).task 0).delivery = some .lost ∧
      ((losePortWhole .A waiting).task 11).delivery = some (.ok (.page 4)) ∧
      (losePortWhole .A waiting).queue 5 = [2] := by decide +kernel

theorem witness_deviceReset :
    let u := result .deviceReset [] (ranked 6)
    answers .A .deviceReset [] demo 0x2A [] = true ∧ ((ranked 6).port .B).lifecycle = .disabled ∧
      u = { State.reset with portA := resetPort } := by decide +kernel

theorem test_rst :
    after .rstAssert demo = { State.reset with rst := true } ∧ after .rstRelease demo = demo ∧
      ((after .rstRelease { demo with rst := true }).line 0).sampled = false ∧
      (after .rstRelease { demo with rst := true }).rst = false := by decide +kernel

/-! ### Frames and laws -/

/-- A command of each form of the frame statements, with its next state. -/
theorem witness_frames :
    demo.DispatcherLaw ∧
    (∃ k : CommandCode, k ≠ .peerDrop ∧ k ≠ .deviceReset ∧ Instr.portDrop .A = k.row .A) ∧
      (∃ u, exec (.prstAssert .A) demo = .next u) ∧ (∃ u, exec (.sliceExpiry .A) demo = .next u) ∧
      (∃ u, exec .tick demo = .next u) ∧ (∀ p, Instr.tick ≠ .deviceReset p) ∧ Instr.tick ≠ .rstAssert := by
  refine ⟨demo_dispatcherLaw, ⟨.portDrop, by decide, by decide, rfl⟩, ⟨_, rfl⟩, ⟨countQuantum .A demo, rfl⟩, ⟨_, rfl⟩, ?_, by decide⟩
  intro p h; cases h

/-- What each slot of `demo` waits for. -/
def demoKinds : List (Slot × WaitKind) :=
  [(5, .delay), (6, .recv 1 1 3), (7, .send 1 ⟨2, 7, 0x8000⟩), (8, .acquire 2), (9, .event 0), (10, .pages 6),
    (11, .pages 2)]

theorem demo_kinds : ∀ t : Slot, (demo.task t).wait.map (·.kind) = demoKinds.lookup t := by decide +kernel

/-- The OPEN exchanges of `demo`. -/
def demoExchanges : List (Fin 16 × ExchangeState) :=
  [(0, .message .arrival ⟨1, [⟨9, 5, 0x8001⟩], [6], [7]⟩), (1, .count .arrival ⟨1, 0, [8]⟩),
    (2, .message .urgency ⟨2, [], [], []⟩), (3, .count .urgency ⟨1, 1, []⟩)]

theorem demo_exchanges : ∀ x : Fin 16, (demo.exchange x).state = (demoExchanges.lookup x).getD .closed := by decide +kernel

theorem demo_exchangeId : ∀ x : Fin 16, demo.exchangeId x = BitVec.ofNat 8 (x.val + 1) := by decide +kernel

/-- A wait of `demo` is an entry of the table. -/
theorem demo_waitsFor {t : Slot} {k : WaitKind → Prop} :
    demo.waitsFor t k ↔ ∃ j, (t, j) ∈ demoKinds ∧ k j := by
  rw [State.waitsFor_iff_kind, demo_kinds]
  have h : ∀ t : Slot, ∀ j, demoKinds.lookup t = some j ↔ (t, j) ∈ demoKinds := by
    intro t j
    fin_cases t <;> simp [demoKinds, List.lookup] <;> exact eq_comm
  simp [h]

theorem demo_listLaw : demo.ListLaw := by
  refine ⟨?_, ?_, ?_, ?_, ?_, ?_, ?_, ?_⟩
  iterate 3
    · intro x o b h
      rw [demo_exchanges] at h
      simp only [demo_exchangeId, demo_waitsFor]
      fin_cases x <;> simp [demoExchanges, List.lookup] at h <;> obtain ⟨-, rfl⟩ := h <;> simp [demoKinds]
  · have h : ∀ l, (demo.line l).waiters = if l = 0 then [9] else [] := by decide +kernel
    intro l
    rw [h]
    simp only [demo_waitsFor]
    fin_cases l <;> simp [demoKinds]
  · simp only [show demo.pool.waitQueue = [10, 11] from rfl, demo_waitsFor]
    refine ⟨by decide, fun t => ?_⟩
    simp only [demoKinds, List.mem_cons, Prod.mk.injEq, List.not_mem_nil, or_false]
    constructor
    · rintro (rfl | rfl)
      · exact ⟨.pages 6, by simp, 6, rfl⟩
      · exact ⟨.pages 2, by simp, 2, rfl⟩
    · rintro ⟨j, h, n, rfl⟩
      simpa [and_or_left, or_and_right] using Or.imp And.left And.left (by simpa using h)
  · intro t id h
    refine ⟨0, .arrival, _, ?_, rfl⟩
    rw [demo_waitsFor] at h
    rw [demo_exchangeId]
    revert h
    simp [demoKinds]
    rintro j (⟨-, rfl⟩ | ⟨-, rfl⟩ | ⟨-, rfl⟩ | ⟨-, rfl⟩ | ⟨-, rfl⟩ | ⟨-, rfl⟩ | ⟨-, rfl⟩) <;> simp <;> exact fun h => h.symm
  · intro t id h
    refine ⟨1, .arrival, _, ?_, rfl⟩
    rw [demo_waitsFor] at h
    rw [demo_exchangeId]
    revert h
    simp [demoKinds]
  · intro t n h
    rw [demo_waitsFor] at h
    revert h
    simp [demoKinds]
    omega


/-- The test state meets every law. -/
theorem demo_lawful : demo.Lawful where
  ports p := by
    cases p <;> exact ⟨⟨by decide, by decide, fun c h => (nomatch h)⟩, fun h => (nomatch h), fun h => (nomatch h), fun f h => (nomatch h)⟩
  dispatcher := demo_dispatcherLaw
  urgency := demo_urgencyLaw
  affinity p := by cases p <;> decide +kernel
  doomed := by
    have h : ∀ t : Slot, (demo.task t).doomed = false := by decide +kernel
    intro t
    rw [h]
    refine ⟨fun k => (nomatch k), ?_⟩
    rintro ⟨p, -, k⟩
    cases p <;> cases k
  exchanges x := by
    rw [demo_exchanges]
    fin_cases x <;> simp [demoExchanges, List.lookup, ExchangeState.Lawful]
  cells := by unfold State.CellLaw; decide +kernel
  filters x b h := by
    simp only [State.mailbox, demo_exchanges] at h
    fin_cases x <;> simp [demoExchanges, List.lookup] at h <;> subst h
    · intro m k t r
      simp at k r
      subst k r
      decide +kernel
    · intro m k
      cases k
  lines := by unfold LineRecord.Lawful; decide +kernel
  ticks := by unfold TickUnit.Bounded; decide +kernel
  timers := by
    have h : ∀ t : Slot, ((demo.task t).wait.bind fun w => w.deadline) = if t = 5 then some 1 else none := by decide +kernel
    refine ⟨by decide +kernel, fun t d => ?_⟩
    rw [h, show demo.time.timers = [⟨5, 1⟩] from rfl]
    simp
    exact fun _ => eq_comm
  timerOrder := by unfold State.TimerOrder; decide +kernel
  waits := by
    refine ⟨?_, demo_listLaw⟩
    have h : ∀ t : Slot, (demo.task t).wait.isSome ↔ (demo.task t).state = .waiting := by decide +kernel
    intro t
    rw [h]
    refine ⟨.inl, ?_⟩
    rintro (k | ⟨p, -, k⟩)
    · exact k
    · cases p <;> cases k
  pool := by
    have h : ∀ e : Fin 64, demo.pool.runs[e] = if e = 0 then some ⟨0, 4, 0⟩ else none := by decide +kernel
    have k : ∀ n : Fin 128, demo.pool.entryOf n.val = if n.val < 4 then some 0 else none := by decide +kernel
    refine ⟨by decide +kernel, by decide +kernel, ?_, ?_, by decide +kernel⟩
    · intro n e
      rw [h, k]
      split <;> split <;> simp_all
      omega
    · intro e r
      rw [h]
      split <;> rintro ⟨⟩
      decide +kernel
  headBlocked t h := by
    cases h
    decide +kernel

/-- A state where every law holds, from which a step answers a next state. -/
theorem witness_laws :
    demo.Lawful ∧ { demo with pending := [.prstRelease .A] }.Lawful ∧
      ∃ u, step { demo with pending := [.prstRelease .A] } = .next u :=
  ⟨demo_lawful, demo_lawful.withPending _, _, rfl⟩

end Sys2Proof.Tests
end

/-! ## What a command on a named task or exchange answers

The taking of a submitted command, in the words of the statements: done, refused, or refused for its handle or id. -/

namespace Sys2Proof.Machine

/-! ### The two completions (R165, R170) -/

theorem command_eq_complete {s : State} {p : Port} {c : CommandCode} {params : List Byte} (h : s.Submitted p c params)
    (body : List Byte → State → Reply) : command p c body s = .next (complete p (body params s)) :=
  take_of_submitted h _

theorem complete_refuse (p : Port) (r : Result) (s : State) : complete p (refuse r s) = s.completed p r.code [] :=
  complete_eq_completed p _

theorem complete_done (p : Port) (bytes : List Byte) (s : State) : complete p (done bytes s) = s.completed p 0x00 bytes :=
  complete_eq_completed p _

/-- A submitted command whose rule refuses it changes nothing but its port's unit (R169). -/
theorem command_refuses {s : State} {p : Port} {c : CommandCode} {params : List Byte} (h : s.Submitted p c params)
    {body : List Byte → State → Reply} {r : Result} (e : body params s = refuse r s) :
    command p c body s = .next (s.completed p r.code []) := by
  rw [command_eq_complete h, e, complete_refuse]

/-- A submitted command that is carried out completes with OK (R170). -/
theorem command_carriesOut {s u : State} {p : Port} {c : CommandCode} {params bytes : List Byte}
    (h : s.Submitted p c params) {body : List Byte → State → Reply} (e : body params s = done bytes u) :
    command p c body s = .next (u.completed p 0x00 bytes) := by
  rw [command_eq_complete h, e, complete_done]

/-! ### Handles (R4, R10) -/

/-- A handle is well formed exactly when it has a slot part (R4). -/
theorem handleSlot_eq_none {v : Half} (h : v.toNat % 64 = 0 ∨ 48 < v.toNat % 64 ∨ 0x3FF < v.toNat) :
    handleSlot v = none := by
  unfold handleSlot
  rw [dif_neg (by omega)]

theorem handleSlot_eq_some {v : Half} {t : Slot} (h : v.toNat % 64 = t.val + 1) (k : v.toNat ≤ 0x3FF) :
    handleSlot v = some t := by
  have l := t.isLt
  unfold handleSlot
  rw [dif_pos (by omega)]
  simp only [Option.some.injEq, Fin.ext_iff]
  omega

theorem withTask_malformed {v : Half} (h : v.toNat % 64 = 0 ∨ 48 < v.toNat % 64 ∨ 0x3FF < v.toNat) (s : State)
    (k : Slot → Reply) : withTask v s k = refuse .badParam s := by
  unfold withTask State.namedTask
  rw [handleSlot_eq_none h]

/-- The current handle of a doomed task is stale (R10). -/
theorem withTask_doomed {s : State} {t : Slot} (d : (s.task t).doomed = true) (k : Slot → Reply) :
    withTask (half (loByte (s.handle t)) (hiByte (s.handle t))) s k = refuse .staleHandle s :=
  withTask_stale (by rw [half_bytes, handleSlot_handle]) (.inr (.inr d)) k

/-- Every command that takes a handle, its other parameters in range, is a command on the task the handle names (R169,
steps 4 and 5). -/
theorem exec_row_withTask {p : Port} {s : State} {c : CommandCode} {lo hi : Byte} {rest : List Byte}
    (hc : c ∈ [CommandCode.taskStart, .taskDelete, .taskHold, .taskRelease, .taskSetpri, .taskSetaff, .taskSetctx, .taskQuery])
    (h : s.Submitted p c (lo :: hi :: rest)) (len : rest.length + 2 = c.paramCount)
    (pri : c = .taskSetpri → ∀ b ∈ rest, b.toNat < 32) (aff : c = .taskSetaff → ∀ b ∈ rest, b = 1 ∨ b = 2 ∨ b = 3) :
    ∃ k, exec (c.row p) s = .next (complete p (withTask (half lo hi) s k)) := by
  have none_left {c : CommandCode} (len : rest.length + 2 = c.paramCount) (e : c.paramCount = 2) : rest = [] :=
    List.length_eq_zero_iff.1 (by omega)
  have one_left {c : CommandCode} (len : rest.length + 2 = c.paramCount) (e : c.paramCount = 3) : ∃ b, rest = [b] :=
    List.length_eq_one_iff.1 (by omega)
  have three_left {c : CommandCode} (len : rest.length + 2 = c.paramCount) (e : c.paramCount = 5) :
      ∃ a b d, rest = [a, b, d] := List.length_eq_three.1 (by omega)
  simp only [List.mem_cons, List.not_mem_nil, or_false] at hc
  obtain rfl | rfl | rfl | rfl | rfl | rfl | rfl | rfl := hc
  case inr.inr.inr.inr.inl =>
    obtain ⟨b, rfl⟩ := one_left len rfl
    have e : priorityOf b = some ⟨b.toNat, pri rfl b (by simp)⟩ := dif_pos _
    simp only [CommandCode.row, exec, execTaskSetpri, command_eq_complete h, e]
    exact ⟨_, rfl⟩
  case inr.inr.inr.inr.inr.inl =>
    obtain ⟨b, rfl⟩ := one_left len rfl
    obtain ⟨a, e⟩ : ∃ a, affinityOf b = some a := by
      obtain rfl | rfl | rfl := aff rfl b (by simp)
      all_goals exact ⟨_, rfl⟩
    simp only [CommandCode.row, exec, execTaskSetaff, command_eq_complete h, e]
    exact ⟨_, rfl⟩
  case inr.inr.inr.inr.inr.inr.inl =>
    obtain ⟨a, b, d, rfl⟩ := three_left len rfl
    simp only [CommandCode.row, exec, execTaskSetctx, command_eq_complete h]
    exact ⟨_, rfl⟩
  all_goals
    obtain rfl := none_left len rfl
    simp only [CommandCode.row, exec, execTaskStart, execTaskDelete, execTaskHold, execTaskRelease, execTaskQuery,
      command_eq_complete h]
    exact ⟨_, rfl⟩

/-! ### Exchange ids (R72) -/

theorem withExchange_malformed {id : Byte} (h : id.toNat % 32 = 0 ∨ 16 < id.toNat % 32) (s : State)
    (k : Fin 16 → Reply) : withExchange id s k = refuse .badParam s := by
  unfold withExchange State.namedExchange exchangeIndex
  rw [dif_neg (by omega)]

theorem withExchange_stale {s : State} {id : Byte} {x : Fin 16} (e : id.toNat % 32 = x.val + 1)
    (h : id.toNat / 32 ≠ (s.exchange x).generation.toNat ∨ (s.exchange x).state = .closed) (k : Fin 16 → Reply) :
    withExchange id s k = refuse .staleExchange s := by
  unfold withExchange State.namedExchange
  rw [exchangeIndex_eq e]
  simp only
  rw [if_neg]
  rintro ⟨same, opened⟩
  exact h.elim (· same) opened

/-- A command with a wait option that may be asked runs its body for some caller (R84). -/
theorem withWaiter_runs {s : State} {p : Port} {option : Byte} (h : s.MayAsk p option) (k : Option Slot → Reply) :
    ∃ caller, withWaiter p option s k = k caller := by
  obtain ⟨-, -, e⟩ | ⟨-, x, -, e⟩ := withWaiter_cases h k
  · exact ⟨_, e⟩
  · exact ⟨_, e⟩

/-- Every command that takes an exchange id, its other parameters in range, is a command on the exchange the id names. -/
theorem exec_row_withExchange {p : Port} {s : State} {c : CommandCode} {id : Byte} {rest : List Byte}
    (h : s.Submitted p c (id :: rest))
    (form : ((c = .xchClose ∨ c = .xchQuery ∨ c = .cntRelease) ∧ rest = []) ∨
      (∃ option lo hi, s.MayAsk p option ∧ OptionInRange option (hi ++ lo) ∧
        ((c = .cntAcquire ∧ rest = [option, lo, hi]) ∨
          (∃ tag v₀ v₁, c = .msgSend ∧ rest = [tag, v₀, v₁, option, lo, hi]) ∨
          ∃ low high, c = .msgRecv ∧ rest = [low, high, option, lo, hi] ∧ low.toNat ≤ high.toNat))) :
    ∃ k, exec (c.row p) s = .next (complete p (withExchange id s k)) := by
  obtain ⟨rfl | rfl | rfl, rfl⟩ | ⟨option, lo, hi, ask, range, form⟩ := form
  case inl.inl | inl.inr.inl | inl.inr.inr =>
    simp only [CommandCode.row, exec, execXchClose, execXchQuery, execCntRelease, command_eq_complete h]
    exact ⟨_, rfl⟩
  have inRange : waitInRange option (half lo hi) = true := (waitInRange_iff _ _).2 range
  obtain ⟨rfl, rfl⟩ | ⟨tag, v₀, v₁, rfl, rfl⟩ | ⟨low, high, rfl, rfl, ordered⟩ := form
  · simp only [CommandCode.row, exec, execCntAcquire, command_eq_complete h, inRange]
    obtain ⟨caller, e⟩ := withWaiter_runs ask _
    exact ⟨_, by rw [e, if_neg (by simp)]⟩
  · simp only [CommandCode.row, exec, execMsgSend, command_eq_complete h, inRange]
    obtain ⟨caller, e⟩ := withWaiter_runs ask _
    exact ⟨_, by rw [e, if_neg (by simp)]⟩
  · simp only [CommandCode.row, exec, execMsgRecv, command_eq_complete h, inRange]
    obtain ⟨caller, e⟩ := withWaiter_runs ask _
    exact ⟨_, by rw [e, if_neg (by simp [ordered])]⟩

/-- Settles O12. -/
theorem handleAndExchangeIdChecks : Obligations.HandleAndExchangeIdChecks := by
  constructor
  · intro p s c lo hi rest hc h len pri aff
    obtain ⟨k, e⟩ := exec_row_withTask hc h len pri aff
    change exec _ s = .next (complete p (withTask (hi ++ lo) s k)) at e
    refine ⟨fun malformed => ?_, fun t slot bound stale => ?_⟩
    · rw [e, withTask_malformed malformed, complete_refuse]; rfl
    · rw [e, withTask_stale (handleSlot_eq_some slot bound) stale, complete_refuse]; rfl
  · intro p s c id rest h form
    obtain ⟨k, e⟩ := exec_row_withExchange h form
    refine ⟨fun malformed => ?_, fun x index stale => ?_⟩
    · rw [e, withExchange_malformed malformed, complete_refuse]; rfl
    · rw [e, withExchange_stale index stale, complete_refuse]; rfl

end Sys2Proof.Machine

/-! ## The task commands, state by state (R12 to R23) -/

namespace Sys2Proof.Machine

/-! ### The commands on a named task

Each is its effect on the task that the handle names (R169, steps 4 and 5). -/

section NamedTask
variable {s : State} {p : Port} {lo hi : Byte}

theorem exec_taskStart (h : s.Submitted p .taskStart [lo, hi]) :
    exec (.taskStart p) s =
      .next (complete p (withTask (half lo hi) s fun t =>
        if (s.task t).state = .dormant then done [] (readyTail t s) else refuse .wrongState s)) := by
  simp only [exec, execTaskStart, command_eq_complete h]

theorem exec_taskDelete (h : s.Submitted p .taskDelete [lo, hi]) :
    exec (.taskDelete p) s = .next (complete p (withTask (half lo hi) s fun t => done [] (deleteTask t s))) := by
  simp only [exec, execTaskDelete, command_eq_complete h]

theorem exec_taskHold (h : s.Submitted p .taskHold [lo, hi]) :
    exec (.taskHold p) s = .next (complete p (withTask (half lo hi) s fun t => holdTask t s)) := by
  simp only [exec, execTaskHold, command_eq_complete h]

theorem exec_taskRelease (h : s.Submitted p .taskRelease [lo, hi]) :
    exec (.taskRelease p) s = .next (complete p (withTask (half lo hi) s fun t => releaseTask t s)) := by
  simp only [exec, execTaskRelease, command_eq_complete h]

theorem priorityOf_eq_some {b : Byte} {n : Fin 32} (e : n.val = b.toNat) : priorityOf b = some n := by
  unfold priorityOf
  rw [dif_pos (by omega)]
  exact congrArg some (Fin.ext e.symm)

theorem exec_taskSetpri {pri : Byte} {new : Fin 32} (h : s.Submitted p .taskSetpri [lo, hi, pri])
    (e : new.val = pri.toNat) :
    exec (.taskSetpri p) s = .next (complete p (withTask (half lo hi) s fun t => done [] (setPriority t new s))) := by
  simp only [exec, execTaskSetpri, command_eq_complete h, priorityOf_eq_some e]

theorem affinityOf_code (a : Affinity) : affinityOf a.code = some a := by
  cases a <;> rfl

theorem exec_taskSetaff {a : Affinity} (h : s.Submitted p .taskSetaff [lo, hi, a.code]) :
    exec (.taskSetaff p) s = .next (complete p (withTask (half lo hi) s fun t => setAffinity t a s)) := by
  simp only [exec, execTaskSetaff, command_eq_complete h, affinityOf_code]

theorem exec_taskSetctx {c₀ c₁ c₂ : Byte} (h : s.Submitted p .taskSetctx [lo, hi, c₀, c₁, c₂]) :
    exec (.taskSetctx p) s =
      .next (complete p (withTask (half lo hi) s fun t =>
        if (s.task t).state = .dormant ∨ (s.task t).state = .held then
          done [] (s.updTask t fun r => { r with context := contextOf c₀ c₁ c₂ })
        else refuse .wrongState s)) := by
  simp only [exec, execTaskSetctx, command_eq_complete h]

theorem exec_taskQuery (h : s.Submitted p .taskQuery [lo, hi]) :
    exec (.taskQuery p) s = .next (complete p (withTask (half lo hi) s fun t => done (s.taskSnapshot t) s)) := by
  simp only [exec, execTaskQuery, command_eq_complete h]

end NamedTask

/-- The completion of a command that a doomed task's current handle names (R10). -/
theorem complete_doomed {s : State} {t : Slot} (d : (s.task t).doomed = true) (p : Port) (k : Slot → Reply) :
    complete p (withTask (half (loByte (s.handle t)) (hiByte (s.handle t))) s k) = s.completed p 0x13 [] := by
  rw [withTask_doomed d, complete_refuse]; rfl

/-! ### TASK.CREATE (R12) -/

theorem affinityOf_eq_none {b : Byte} (h₁ : b ≠ 1) (h₂ : b ≠ 2) (h₃ : b ≠ 3) : affinityOf b = none := by
  simp only [affinityOf, if_neg h₁, if_neg h₂, if_neg h₃]

theorem priorityOf_eq_none {b : Byte} (h : 32 ≤ b.toNat) : priorityOf b = none := dif_neg (by omega)

theorem lowestFree_eq_none {s : State} (h : ∀ t, (s.task t).state ≠ .free) : s.lowestFree = none := by
  unfold State.lowestFree
  simp only [List.find?_eq_none, beq_iff_eq]
  exact fun t _ => h t

theorem lowestFree_eq_some {s : State} {t : Slot} (h : (s.task t).state = .free)
    (first : ∀ u < t, (s.task u).state ≠ .free) : s.lowestFree = some t :=
  Fin.find?_eq_find?_finRange.symm.trans (Fin.find?_eq_some_iff.2 ⟨by simp [h], fun u hu => by simpa using first u hu⟩)

/-- The handle reads the generation alone (R4). -/
theorem handle_updTask {s : State} {t : Slot} {f : TaskRecord → TaskRecord}
    (h : (f (s.task t)).generation = (s.task t).generation) : (s.updTask t f).handle t = s.handle t := by
  simp only [State.handle, State.updTask_task_self, h]

/-- Settles O21: every clause runs the command's body on the submitted bytes. -/
theorem taskCreateAndStart : Obligations.TaskCreateAndStart := by
  refine ⟨fun p s pri aff c₀ c₁ c₂ q h => ⟨fun range => ?_, fun priority a hp ha => ⟨fun full => ?_, fun t ht low => ?_⟩⟩,
    fun p s t h => ⟨fun d dormant => ?_, fun d dormant live => ?_, fun d => ?_⟩⟩
  · simp only [exec, execTaskCreate]
    refine command_refuses (r := .badParam) h ?_
    obtain high | ⟨h₁, h₂, h₃⟩ := range
    · simp only [priorityOf_eq_none high]
    · simp only [affinityOf_eq_none h₁ h₂ h₃]
      cases priorityOf pri <;> rfl
  · subst ha
    simp only [exec, execTaskCreate]
    exact command_refuses (r := .noSlot) h (by
      simp only [priorityOf_eq_some hp, affinityOf_code, lowestFree_eq_none full])
  · subst ha
    simp only [exec, execTaskCreate]
    refine command_carriesOut h ?_
    simp only [priorityOf_eq_some hp, affinityOf_code, lowestFree_eq_some ht low]
    rw [handle_updTask rfl]
    rfl
  · rw [exec_taskStart h, withTask_handle (by simp [dormant]) d, if_pos dormant, complete_done]
  · rw [exec_taskStart h, withTask_handle live d, if_neg dormant, complete_refuse]; rfl
  · rw [exec_taskStart h, complete_doomed d]

end Sys2Proof.Machine

namespace Sys2Proof.Machine

/-! ### TASK.DELETE and TASK.EXIT (R14 to R16) -/

/-- Settles O22: by the state of the task, the branches of deleteTask. -/
theorem taskDeleteRetiresATaskThatIsNotRunning : Obligations.TaskDeleteRetiresATaskThatIsNotRunning := by
  intro p s t h d stale
  have run (live : (s.task t).state ≠ .free) : exec (.taskDelete p) s = .next ((deleteTask t s).completed p 0x00 []) := by
    rw [exec_taskDelete h, withTask_handle live d, complete_done]
  refine ⟨fun e => ?_, fun e => ?_, fun q e on => ?_, fun e => ?_⟩
  · rw [run (by rcases e with e | e <;> simp [e])]
    rcases e with e | e <;> simp only [deleteTask, e] <;> rfl
  · rw [run (by simp [e])]
    simp only [deleteTask, e, unqueue, nextGeneration, State.updTask_task_self]
    rfl
  · rw [run (by simp [e])]
    simp only [deleteTask, e, portOfIncoming_of_incomingOn on]
    rfl
  · rw [run (by simp [e])]
    simp only [deleteTask, e]
    rfl

/-- What dooming writes in the record of a task and in the occupancy of its port (R15). -/
def doomRecord (p : Port) (t : Slot) (s : State) : State :=
  (s.updTask t fun r =>
    { r with generation := r.generation + 1, doomed := true, holdFlag := false, holdCause := none }).setDisposition p .free

/-- Dooming a task that carries no wait (R15). -/
theorem doom_of_no_wait {p : Port} {s : State} (t : Slot) (h : (s.port p).occ.disposition ≠ some .wait) :
    doom p t s = doomRecord p t s := by
  have e : ((s.port p).occ.disposition == some Disposition.wait) = false := by simpa using h
  simp only [doom, e, Bool.false_and, if_neg h, nextGeneration, updTask_updTask]
  rfl

/-- Dooming a task that departs with disposition WAIT: the wait is cancelled, and its leaving the head of the page-wait
queue is served (R15). -/
theorem doom_of_wait {p : Port} {s : State} (t : Slot) (h : (s.port p).occ.disposition = some .wait) :
    doom p t s =
      if s.pool.waitQueue.head? = some t then
        serve (doomRecord p t ((leaveWait t s).updTask t fun r => { r with wait := none }))
      else doomRecord p t ((leaveWait t s).updTask t fun r => { r with wait := none }) := by
  simp only [doom, h, if_pos, beq_self_eq_true, Bool.true_and, State.isPageHead, beq_iff_eq, cancelWait, nextGeneration,
    updTask_updTask, doomRecord]

/-- TASK.DELETE of a RUNNING task dooms it and re-decides the port it occupies (R15, R24). -/
theorem deleteTask_running {s : State} {t : Slot} {q : Port} (e : (s.task t).state = .running) (o : s.Occupies t q) :
    deleteTask t s = redecideDeleted q (doom q t s) := by
  simp only [deleteTask, e, portOfOccupant_of_occupies o]

/-- The re-decision after TASK.DELETE revises an offer on an ENABLED port also where its incoming still wins, and
is the plain re-decision otherwise (R24; log entry 18). -/
theorem redecideDeleted_of_offer {q : Port} {u : State} {o : Offer} (l : (u.port q).lifecycle = .enabled)
    (h : (u.port q).occ.offer = some o) :
    redecideDeleted q u =
      if o.kind = OfferKind.switchTask ∧ u.urgency o.incoming ≤ u.urgency (u.selection q) then
        writeOffer q .switchTask o.incoming u
      else redecide q false u := by
  simp [redecideDeleted, h, PortRecord.isEnabled, l]

theorem redecideDeleted_of_disabled {q : Port} {u : State} (l : (u.port q).lifecycle = .disabled) :
    redecideDeleted q u = redecide q false u := by
  unfold redecideDeleted
  split
  · exact if_neg (by simp [PortRecord.isEnabled, l])
  · rfl

theorem redecideDeleted_of_settled {q : Port} {u : State} (h : (u.port q).occ.offer = none) :
    redecideDeleted q u = redecide q false u := by
  simp only [redecideDeleted, h]

/-- Settles O23: TASK.DELETE and TASK.EXIT both doom the task; they differ in the re-decision. -/
theorem deleteOrExitDoomsARunningTask : Obligations.DeleteOrExitDoomsARunningTask := by
  intro p q s t dooming cancelled redecided deleted
  have redecided_eq (u : State) : redecided u = redecideDeleted q u := by
    simp only [redecided]
    split
    · next o l h => exact (redecideDeleted_of_offer l h).symm
    · next other =>
      cases l : (u.port q).lifecycle with
      | disabled => exact (redecideDeleted_of_disabled l).symm
      | enabled =>
        cases h : (u.port q).occ.offer with
        | none => exact (redecideDeleted_of_settled h).symm
        | some o => exact absurd h (other o l)
  refine ⟨fun h d => ?_, fun running d o h => ?_, fun caller h => ?_⟩
  · rw [exec_taskDelete h, complete_doomed d]
  · rw [exec_taskDelete h, withTask_handle (by simp [running]) d, complete_done, deleteTask_running running o]
    have e : redecideDeleted q (doom q t s) = deleted := by
      simp only [deleted, redecided_eq]
      split
      · next w => rw [doom_of_wait t w]; rfl
      · next w => rw [doom_of_no_wait t w]; rfl
    rw [e]
  · simp only [exec, execTaskExit]
    refine command_carriesOut h ?_
    simp only [withCaller_of_isCaller caller, doom_of_no_wait t caller.notWaiting]
    rfl

/-! ### TASK.HOLD and TASK.RELEASE (R17, R18) -/

/-- Settles O25: by the state of the task, and of a RUNNING one by its port's disposition, the branches of holdTask. -/
theorem taskHoldSuspends : Obligations.TaskHoldSuspends := by
  intro p s t h d heldBy flagged run refused
  have runs {u : State} (live : (s.task t).state ≠ .free) (e : holdTask t s = done [] u) : run u := by
    simp only [run]
    rw [exec_taskHold h, withTask_handle live d, e, complete_done]
  have refuses (live : (s.task t).state ≠ .free) (e : holdTask t s = refuse .wrongState s) : refused := by
    simp only [refused]
    rw [exec_taskHold h, withTask_handle live d, e, complete_refuse]; rfl
  refine ⟨?_, fun e => ?_, fun q e on => ?_, fun e f => ?_, fun e f => ?_, fun q e o => ⟨?_, fun w f => ?_, fun w f => ?_, fun w => ?_⟩⟩
  · rintro (e | e) <;> exact refuses (by simp [e]) (by simp only [holdTask, e])
  · exact runs (by simp [e]) (by simp only [holdTask, e]; rfl)
  · exact runs (by simp [e]) (by simp only [holdTask, e, portOfIncoming_of_incomingOn on]; rfl)
  · exact runs (by simp [e]) (by simp only [holdTask, e, f]; rfl)
  · exact refuses (by simp [e]) (by simp only [holdTask, e, f, if_true])
  · rintro (w | w | w | w) <;>
      exact runs (by simp [e]) (by simp only [holdTask, e, portOfOccupant_of_occupies o, w]; rfl)
  · exact runs (by simp [e]) (by simp only [holdTask, e, portOfOccupant_of_occupies o, w, f]; rfl)
  · exact refuses (by simp [e]) (by simp only [holdTask, e, portOfOccupant_of_occupies o, w, f, if_true])
  · exact refuses (by simp [e]) (by simp only [holdTask, e, portOfOccupant_of_occupies o, w])

/-- Settles O26: by the state of the task, and of a RUNNING one by its port's disposition, the branches of releaseTask. -/
theorem taskReleaseResumes : Obligations.TaskReleaseResumes := by
  intro p s t h
  refine ⟨fun d => ?_, fun d => ?_⟩
  · rw [exec_taskRelease h, complete_doomed d]
  intro unheld unflagged run refused
  have runs {u : State} (live : (s.task t).state ≠ .free) (e : releaseTask t s = done [] u) : run u := by
    simp only [run]
    rw [exec_taskRelease h, withTask_handle live d, e, complete_done]
  have refuses (live : (s.task t).state ≠ .free) (e : releaseTask t s = refuse .wrongState s) : refused := by
    simp only [refused]
    rw [exec_taskRelease h, withTask_handle live d, e, complete_refuse]; rfl
  refine ⟨?_, fun e => ?_, fun e f => ?_, fun e f => ?_, fun q e o => ⟨fun w => ?_, fun w f => ?_, fun w f => ?_, fun w w' => ?_⟩⟩
  · rintro (e | e | e) <;> exact refuses (by simp [e]) (by simp only [releaseTask, e])
  · exact runs (by simp [e]) (by simp only [releaseTask, e]; rfl)
  · exact runs (by simp [e]) (by simp only [releaseTask, e, f, if_true]; rfl)
  · exact refuses (by simp [e]) (by simp only [releaseTask, e, f]; rfl)
  · exact runs (by simp [e]) (by simp only [releaseTask, e, portOfOccupant_of_occupies o, w]; rfl)
  · exact runs (by simp [e]) (by simp only [releaseTask, e, portOfOccupant_of_occupies o, w, f, if_true]; rfl)
  · exact refuses (by simp [e]) (by simp only [releaseTask, e, portOfOccupant_of_occupies o, w, f]; rfl)
  · refine refuses (by simp [e]) ?_
    simp only [releaseTask, e, portOfOccupant_of_occupies o]
    split <;> first | rfl | contradiction

end Sys2Proof.Machine

namespace Sys2Proof.Machine

/-! ### TASK.SETPRI (R19) -/

/-- Settles O27: by the state of the task, and of a RUNNING one by its port's disposition, the branches of setPriority. -/
theorem taskSetpriMovesTheTask : Obligations.TaskSetpriMovesTheTask := by
  refine fun p s t pri => ⟨fun lo hi h range => ?_, fun h new hn => ⟨fun d => ?_, fun d => ?_⟩⟩
  · simp only [exec, execTaskSetpri]
    exact command_refuses (r := .badParam) h (by simp only [priorityOf_eq_none range])
  · rw [exec_taskSetpri h hn, complete_doomed d]
  intro old written run
  have runs {u : State} (live : (s.task t).state ≠ .free) (e : setPriority t new s = u) : run u := by
    simp only [run]
    rw [exec_taskSetpri h hn, withTask_handle live d, complete_done, e]
  refine ⟨fun live same => runs live (if_pos same), fun differs => ?_⟩
  have differs' : ¬new = (s.task t).priority := differs
  refine ⟨?_, fun e => ?_, fun q e on => ⟨fun lt => ?_, fun lt => ?_⟩, fun e => ?_,
    fun q e o => ⟨fun w => ⟨fun lt => ?_, fun lt => ?_⟩, ?_, fun w => ?_, fun w => ?_, fun w => ?_⟩⟩
  · rintro (e | e) <;> exact runs (by simp [e]) (by simp only [setPriority, if_neg differs', e]; rfl)
  · exact runs (by simp [e]) (by simp only [setPriority, if_neg differs', e]; rfl)
  · exact runs (by simp [e]) (by
      simp only [setPriority, if_neg differs', e, portOfIncoming_of_incomingOn on]
      exact if_pos (decide_eq_true lt))
  · exact runs (by simp [e]) (by
      simp only [setPriority, if_neg differs', e, portOfIncoming_of_incomingOn on]
      exact if_neg (by simpa using lt.le))
  · exact runs (by simp [e]) (by simp only [setPriority, if_neg differs', e]; rfl)
  · refine runs (by simp [e]) ?_
    simp only [setPriority, if_neg differs', e, portOfOccupant_of_occupies o, setpriOccupant, State.updTask_port, w]
    exact if_pos (decide_eq_true lt)
  · refine runs (by simp [e]) ?_
    simp only [setPriority, if_neg differs', e, portOfOccupant_of_occupies o, setpriOccupant, State.updTask_port, w]
    exact if_neg (by simpa using lt.le)
  · rintro (w | w)
    all_goals exact runs (by simp [e]) (by
      simp only [setPriority, if_neg differs', e, portOfOccupant_of_occupies o, setpriOccupant, State.updTask_port, w]
      rfl)
  all_goals exact runs (by simp [e]) (by
    simp only [setPriority, if_neg differs', e, portOfOccupant_of_occupies o, setpriOccupant, State.updTask_port, w]
    rfl)

/-! ### TASK.SETAFF, TASK.SETCTX, TASK.QUERY and TASK.SELF (R20 to R23) -/

/-- TASK.SETAFF in the states that allow it (R20). -/
theorem setAffinity_writes {s : State} {t : Slot} {a : Affinity}
    (h : (s.task t).state = .dormant ∨ (s.task t).state = .waiting ∨ (s.task t).state = .held ∨
      ((s.task t).state = .ready ∧ (s.task t).affinity = a)) :
    setAffinity t a s = done [] (s.updTask t fun r => { r with affinity := a }) := by
  obtain e | e | e | ⟨e, same⟩ := h
  case inr.inr.inr => simp only [setAffinity, e, if_pos same]
  all_goals simp only [setAffinity, e]

/-- Byte 4 of TASK.QUERY, by the state of the task (R22). -/
theorem portOrHoldByte_spec (s : State) (t : Slot) :
    (∀ q, (s.task t).state = .running → s.Occupies t q → s.portOrHoldByte t = if q = .A then 1 else 2) ∧
    (∀ q, (s.task t).state = .selected → s.IncomingOn t q → s.portOrHoldByte t = if q = .A then 1 else 2) ∧
    ((s.task t).state = .held → (s.task t).holdCause = some .command → s.portOrHoldByte t = 1) ∧
    ((s.task t).state = .held → (s.task t).holdCause = some .portLost → s.portOrHoldByte t = 2) ∧
    ((s.task t).state = .waiting → s.portOrHoldByte t = if (s.task t).holdFlag then 1 else 0) ∧
    ((s.task t).state = .dormant ∨ (s.task t).state = .ready → s.portOrHoldByte t = 0) := by
  refine ⟨fun q e o => ?_, fun q e o => ?_, fun e c => ?_, fun e c => ?_, fun e => ?_, ?_⟩
  · simp only [State.portOrHoldByte, e, portOfOccupant_of_occupies o]
    cases q <;> rfl
  · simp only [State.portOrHoldByte, e, portOfIncoming_of_incomingOn o]
    cases q <;> rfl
  · simp only [State.portOrHoldByte, e, c]; rfl
  · simp only [State.portOrHoldByte, e, c]; rfl
  · simp only [State.portOrHoldByte, e]; rfl
  · rintro (e | e) <;> simp only [State.portOrHoldByte, e]

/-- Settles O28: the four commands run their bodies on the named task or the caller. -/
theorem taskSetaffSetctxQueryAndSelf : Obligations.TaskSetaffSetctxQueryAndSelf := by
  refine ⟨fun p s t => ⟨fun lo hi aff h h₁ h₂ h₃ => ?_, fun a h => ⟨fun d => ?_, fun d => ⟨?_, ?_, fun e same => ?_,
      fun e differs => ?_⟩⟩, fun c₀ c₁ c₂ h => ⟨fun d => ?_, fun d => ⟨fun e => ?_, fun h₁ h₂ live => ?_⟩⟩⟩,
    fun p s t => ⟨fun h d => ?_, fun live d h => ⟨s.portOrHoldByte t, ?_, portOrHoldByte_spec s t⟩, fun caller h => ?_⟩⟩
  · simp only [exec, execTaskSetaff]
    exact command_refuses (r := .badParam) h (by simp only [affinityOf_eq_none h₁ h₂ h₃])
  · rw [exec_taskSetaff h, complete_doomed d]
  · rintro (e | e)
    all_goals
      rw [exec_taskSetaff h, withTask_handle (by simp [e]) d]
      simp only [setAffinity, e, complete_refuse]
      rfl
  · intro e
    rw [exec_taskSetaff h, withTask_handle (by rcases e with e | e | e <;> simp [e]) d,
      setAffinity_writes (by rcases e with e | e | e <;> simp [e]), complete_done]
  · rw [exec_taskSetaff h, withTask_handle (by simp [e]) d, setAffinity_writes (by simp [e, same]), complete_done]
  · rw [exec_taskSetaff h, withTask_handle (by simp [e]) d]
    simp only [setAffinity, e, if_neg differs, complete_done]
  · rw [exec_taskSetctx h, complete_doomed d]
  · rw [exec_taskSetctx h, withTask_handle (by rcases e with e | e <;> simp [e]) d, if_pos e, complete_done]
    rfl
  · rw [exec_taskSetctx h, withTask_handle live d, if_neg (by simp [h₁, h₂]), complete_refuse]
    rfl
  · rw [exec_taskQuery h, complete_doomed d]
  · rw [exec_taskQuery h, withTask_handle live d, complete_done]
    rfl
  · simp only [exec, execTaskSelf]
    exact command_carriesOut h (by simp only [withCaller_of_isCaller caller])

end Sys2Proof.Machine

/-! ## The end of a wait (R9) -/

namespace Sys2Proof.Machine

/-! ### What leaving a wait's lists leaves -/

@[simp] theorem leaveList_tasks (t : Slot) (k : WaitKind) (s : State) : (leaveList t k s).tasks = s.tasks := by
  unfold leaveList
  split <;> (try split) <;> simp

@[simp] theorem leaveList_queues (t : Slot) (k : WaitKind) (s : State) : (leaveList t k s).queues = s.queues := by
  unfold leaveList
  split <;> (try split) <;> simp

@[simp] theorem leaveList_port (t : Slot) (k : WaitKind) (s : State) (q : Port) : (leaveList t k s).port q = s.port q := by
  unfold leaveList
  split <;> (try split) <;> simp

@[simp] theorem leaveWait_tasks (t : Slot) (s : State) : (leaveWait t s).tasks = s.tasks := by
  unfold leaveWait
  split <;> simp

@[simp] theorem leaveWait_task (t : Slot) (s : State) (u : Slot) : (leaveWait t s).task u = s.task u := by
  simp [State.task]

@[simp] theorem leaveWait_queues (t : Slot) (s : State) : (leaveWait t s).queues = s.queues := by
  unfold leaveWait
  split <;> simp

@[simp] theorem leaveWait_queue (t : Slot) (s : State) (l : Fin 32) : (leaveWait t s).queue l = s.queue l := by
  simp [State.queue]

@[simp] theorem leaveWait_port (t : Slot) (s : State) (q : Port) : (leaveWait t s).port q = s.port q := by
  unfold leaveWait
  split <;> simp

theorem leaveWait_of_wait {t : Slot} {s : State} {w : WaitRecord} (h : (s.task t).wait = some w) :
    leaveWait t s = removeTimer t (leaveList t w.kind s) := by
  simp only [leaveWait, h]

theorem updMailbox_of_message {s : State} {x : Fin 16} {o : WaiterOrder} {b : Mailbox}
    (h : (s.exchange x).state = .message o b) (f : Mailbox → Mailbox) :
    s.updMailbox x f = s.setExchange x (.message o (f b)) := by
  simp only [State.updMailbox, h]

theorem updCounter_of_count {s : State} {x : Fin 16} {o : WaiterOrder} {c : Counter}
    (h : (s.exchange x).state = .count o c) (f : Counter → Counter) :
    s.updCounter x f = s.setExchange x (.count o (f c)) := by
  simp only [State.updCounter, h]

/-! ### The new place of the waiter (R9, third step) -/

theorem settleWaiter_waiting {t : Slot} {s : State} (h : (s.task t).state = .waiting) :
    settleWaiter t s = if (s.task t).holdFlag then becomeHeld t s else readyTail t s := by
  simp only [settleWaiter, h]

theorem settleWaiter_departing {t : Slot} {s : State} {p : Port} (h : (s.task t).state = .running)
    (o : s.portOfOccupant t = some p) (w : (s.port p).occ.disposition = some .wait) :
    settleWaiter t s =
      if (s.task t).holdFlag then
        redecide p false
          ((s.updTask t fun r => { r with holdFlag := false, holdCause := some .command }).setDisposition p .held)
      else redecide p false (s.setDisposition p .readyTail) := by
  simp only [settleWaiter, h, o, w, if_true]

/-- Settles O19: the lists by the kind of the wait, the new place by the state of the task. -/
theorem endOfAWait : Obligations.EndOfAWait := by
  intro t d s w h untimed left
  have state : (left.task t).state = (s.task t).state := by simp [left]
  have flag : (left.task t).holdFlag = (s.task t).holdFlag := by simp [left]
  have port (p : Port) : left.port p = s.port p := by simp [left]
  have leaves : leaveWait t s = removeTimer t (leaveList t w.kind s) := leaveWait_of_wait h
  refine ⟨fun k => ?_, fun l k => ?_, fun n k => ?_, fun x id e => ⟨fun low high o b k m => ?_, fun m o b k m => ?_,
    fun o c k m => ?_⟩, fun e f => ?_, fun e f => ?_, fun p e o w => ⟨fun f => ?_, fun f => ?_⟩⟩
  · rw [leaves, k]; rfl
  · rw [leaves, k]; rfl
  · rw [leaves, k]; rfl
  · rw [leaves, k]; simp only [leaveList, exchangeIndex_eq e, updMailbox_of_message m]; rfl
  · rw [leaves, k]; simp only [leaveList, exchangeIndex_eq e, updMailbox_of_message m]; rfl
  · rw [leaves, k]; simp only [leaveList, exchangeIndex_eq e, updCounter_of_count m]; rfl
  · change settleWaiter t left = _
    rw [settleWaiter_waiting (state.trans e), flag, f]; rfl
  · change settleWaiter t left = _
    rw [settleWaiter_waiting (state.trans e), flag, f]; rfl
  all_goals
    have occupies : left.Occupies t p := by simpa only [State.Occupies, port] using o
    change settleWaiter t left = _
    rw [settleWaiter_departing (state.trans e) (portOfOccupant_of_occupies occupies) (by rw [port, w]), flag, f]
    rfl

end Sys2Proof.Machine

/-! ## The Page Pool: removing runs, and naming one (R145, R153, R154) -/

namespace Sys2Proof.Machine

/-! ### What the removal of a run writes (R153) -/

/-- The page lies in the run of the entry. -/
def PagePool.Covers (p : PagePool) (e : Fin 64) (k : Nat) : Prop :=
  ∃ r, p.runs[e] = some r ∧ r.first ≤ k ∧ k < r.first + r.length

/-- The length of the run of an entry, 0 where it has none. -/
def PagePool.lengthAt (p : PagePool) (e : Fin 64) : Nat := p.runs[e].elim 0 Run.length

theorem PagePool.removeRun_runs (p : PagePool) (e f : Fin 64) :
    (p.removeRun e).runs[f] = if e = f then none else p.runs[f] := by
  unfold PagePool.removeRun
  split
  · next h =>
    split
    · next same => exact same ▸ h
    · rfl
  · simp only [Fin.getElem_fin, Vector.getElem_set, Fin.ext_iff]

open Classical in
theorem PagePool.removeRun_pageMap (p : PagePool) (e : Fin 64) (k : Fin 128) :
    (p.removeRun e).pageMap[k] = if p.Covers e k.val then none else p.pageMap[k] := by
  unfold PagePool.removeRun
  split
  · next h => rw [if_neg]; rintro ⟨r, hr, -⟩; rw [h] at hr; cases hr
  · next r h =>
    have covers : p.Covers e k.val ↔ r.first ≤ k.val ∧ k.val < r.first + r.length := by
      refine ⟨?_, fun b => ⟨r, h, b⟩⟩
      rintro ⟨r', hr', b⟩
      rw [h] at hr'
      cases hr'
      exact b
    simp only [Fin.getElem_fin, Vector.getElem_ofFn, covers]

theorem PagePool.removeRun_freePages (p : PagePool) (e : Fin 64) :
    (p.removeRun e).freePages = p.freePages + p.lengthAt e := by
  unfold PagePool.removeRun PagePool.lengthAt
  split
  · next h => simp [h]
  · next r h => simp [h]

/-! ### The release of a list of entries (R156) -/

theorem PagePool.foldl_removeRun_runs (es : List (Fin 64)) (f : Fin 64) : ∀ p : PagePool,
    (es.foldl (fun q e => q.removeRun e) p).runs[f] = if f ∈ es then none else p.runs[f] := by
  induction es with
  | nil => intro p; simp
  | cons e es ih =>
    intro p
    rw [List.foldl_cons, ih, PagePool.removeRun_runs]
    by_cases h : f ∈ es
    · simp [h]
    · by_cases k : e = f
      · simp [k]
      · simp [h, k, Ne.symm k]

theorem PagePool.removeRun_covers {p : PagePool} {e f : Fin 64} (h : e ≠ f) (k : Nat) :
    (p.removeRun e).Covers f k ↔ p.Covers f k := by
  simp only [PagePool.Covers, PagePool.removeRun_runs, if_neg h]

open Classical in
theorem PagePool.foldl_removeRun_pageMap (es : List (Fin 64)) (k : Fin 128) : es.Nodup → ∀ p : PagePool,
    (es.foldl (fun q e => q.removeRun e) p).pageMap[k] = if ∃ e ∈ es, p.Covers e k.val then none else p.pageMap[k] := by
  induction es with
  | nil => intro _ p; simp
  | cons e es ih =>
    intro nodup p
    obtain ⟨fresh, nodup⟩ := List.nodup_cons.1 nodup
    have same : (∃ f ∈ es, (p.removeRun e).Covers f k.val) ↔ ∃ f ∈ es, p.Covers f k.val := by
      refine exists_congr fun f => and_congr_right fun mem => PagePool.removeRun_covers ?_ k.val
      rintro rfl
      exact fresh mem
    rw [List.foldl_cons, ih nodup, PagePool.removeRun_pageMap]
    simp only [same, List.mem_cons, exists_eq_or_imp]
    by_cases a : ∃ f ∈ es, p.Covers f k.val
    · rw [if_pos a, if_pos (.inr a)]
    · by_cases b : p.Covers e k.val
      · rw [if_neg a, if_pos b, if_pos (.inl b)]
      · rw [if_neg a, if_neg b, if_neg (by simp [a, b])]

theorem PagePool.foldl_removeRun_freePages (es : List (Fin 64)) : es.Nodup → ∀ p : PagePool,
    (es.foldl (fun q e => q.removeRun e) p).freePages = p.freePages + (es.map p.lengthAt).sum := by
  induction es with
  | nil => intro _ p; simp
  | cons e es ih =>
    intro nodup p
    obtain ⟨fresh, nodup⟩ := List.nodup_cons.1 nodup
    have same : es.map (p.removeRun e).lengthAt = es.map p.lengthAt := by
      refine List.map_congr_left fun f mem => ?_
      rw [PagePool.lengthAt, PagePool.removeRun_runs, if_neg (by rintro rfl; exact fresh mem)]
      rfl
    rw [List.foldl_cons, ih nodup, PagePool.removeRun_freePages, same, List.map_cons, List.sum_cons, Nat.add_assoc]

/-! ### The runs of a task (R145) -/

theorem PagePool.ownedBy_iff {p : PagePool} {t : Slot} {e : Fin 64} :
    p.ownedBy t e = true ↔ ∃ r, p.runs[e] = some r ∧ r.owner = t := by
  unfold PagePool.ownedBy
  split
  · next r h => simp [h]
  · next h => simp [h]

/-- The runs of the table, entry by entry. -/
theorem PagePool.runList_eq (p : PagePool) : p.runList = (List.finRange 64).filterMap fun e => p.runs[e] := by
  have h : p.runs.toList = (List.finRange 64).map fun e => p.runs[e] := by
    apply List.ext_getElem <;> simp
  rw [PagePool.runList, h, List.filterMap_map]
  rfl

theorem PagePool.mem_runList {p : PagePool} {r : Run} : r ∈ p.runList ↔ ∃ e : Fin 64, p.runs[e] = some r := by
  simp [PagePool.runList_eq]

theorem PagePool.runsOf_eq_nil {p : PagePool} {t : Slot} :
    p.runsOf t = [] ↔ ∀ (e : Fin 64) r, p.runs[e] = some r → r.owner ≠ t := by
  simp only [PagePool.runsOf, List.filter_eq_nil_iff, PagePool.mem_runList, beq_iff_eq]
  exact ⟨fun h e r hr => h r ⟨e, hr⟩, fun h r ⟨e, hr⟩ => h e r hr⟩

/-- The lengths of a task's runs, added up entry by entry. -/
theorem PagePool.sum_runsOf (p : PagePool) (t : Slot) :
    ((p.runsOf t).map (·.length)).sum = (((List.finRange 64).filter (p.ownedBy t)).map p.lengthAt).sum := by
  rw [PagePool.runsOf, PagePool.runList_eq]
  generalize List.finRange 64 = es
  induction es with
  | nil => rfl
  | cons e es ih =>
    cases h : p.runs[e] with
    | none =>
      have free : p.ownedBy t e = false := by simp only [PagePool.ownedBy, h]
      rw [List.filterMap_cons, h, List.filter_cons_of_neg (by simp [free]), ih]
    | some r =>
      have owned : p.ownedBy t e = (r.owner == t) := by simp only [PagePool.ownedBy, h]
      have len : p.lengthAt e = r.length := by simp only [PagePool.lengthAt, h]; rfl
      rw [List.filterMap_cons, h, List.filter_cons, List.filter_cons, owned]
      split
      · rw [List.map_cons, List.sum_cons, List.map_cons, List.sum_cons, ih, len]
      · exact ih

/-! ### The release of a task's runs -/

theorem PagePool.releaseRuns_runs (p : PagePool) (t : Slot) (e : Fin 64) :
    (p.releaseRuns t).runs[e] = if p.ownedBy t e then none else p.runs[e] := by
  simp only [PagePool.releaseRuns, PagePool.foldl_removeRun_runs, List.mem_filter, List.mem_finRange, true_and]

open Classical in
theorem PagePool.releaseRuns_pageMap (p : PagePool) (t : Slot) (k : Fin 128) :
    (p.releaseRuns t).pageMap[k] =
      if ∃ (e : Fin 64) (r : Run), p.runs[e] = some r ∧ r.owner = t ∧ r.first ≤ k.val ∧ k.val < r.first + r.length then none
      else p.pageMap[k] := by
  have same : (∃ e ∈ (List.finRange 64).filter (p.ownedBy t), p.Covers e k.val) ↔
      ∃ (e : Fin 64) (r : Run), p.runs[e] = some r ∧ r.owner = t ∧ r.first ≤ k.val ∧ k.val < r.first + r.length := by
    simp only [List.mem_filter, List.mem_finRange, true_and, PagePool.ownedBy_iff, PagePool.Covers]
    refine exists_congr fun e => ⟨?_, ?_⟩
    · rintro ⟨⟨r, hr, own⟩, r', hr', bounds⟩
      obtain rfl : r = r' := Option.some.inj (hr.symm.trans hr')
      exact ⟨r, hr, own, bounds⟩
    · rintro ⟨r, hr, own, bounds⟩
      exact ⟨⟨r, hr, own⟩, r, hr, bounds⟩
  rw [PagePool.releaseRuns, PagePool.foldl_removeRun_pageMap _ _ ((List.nodup_finRange 64).filter _)]
  simp only [same]

theorem PagePool.releaseRuns_freePages (p : PagePool) (t : Slot) :
    (p.releaseRuns t).freePages = p.freePages + ((p.runsOf t).map (·.length)).sum := by
  rw [PagePool.releaseRuns, PagePool.foldl_removeRun_freePages _ ((List.nodup_finRange 64).filter _), PagePool.sum_runsOf]

theorem State.ownsRun_iff {s : State} {t : Slot} : s.ownsRun t = true ↔ s.pool.runsOf t ≠ [] := by
  simp [State.ownsRun]

theorem freeSlot_task (t u : Slot) (s : State) :
    (freeSlot t s).task u = if t = u then blankTask (s.task t).generation else s.task u := by
  rw [freeSlot, State.updPool_task, State.updTask_task]

@[simp] theorem freeSlot_pool (t : Slot) (s : State) : (freeSlot t s).pool = s.pool.releaseRuns t := rfl

theorem retire_eq (t : Slot) (wasHead : Bool) (s : State) :
    retire t wasHead s = if s.pool.runsOf t ≠ [] ∨ wasHead = true then serve (freeSlot t s) else freeSlot t s := by
  simp only [retire, Bool.or_eq_true, State.ownsRun_iff]

/-- Settles O24: the release of the task's runs, field by field. -/
theorem freedSlotReleasesItsRuns : Obligations.FreedSlotReleasesItsRuns := by
  intro t wasHead s u
  refine ⟨(freeSlot_task t t s).trans (if_pos rfl), fun v h => (freeSlot_task t v s).trans (if_neg h.symm),
    fun e => ⟨fun r hr own => ?_, fun other => ?_⟩, fun k => ⟨fun owned => ?_, fun notOwned => ?_⟩,
    PagePool.releaseRuns_freePages _ _, PagePool.releaseRuns_size _ _, PagePool.releaseRuns_waitQueue _ _,
    retire_eq t wasHead s⟩
  · exact (PagePool.releaseRuns_runs _ _ _).trans (if_pos (PagePool.ownedBy_iff.2 ⟨r, hr, own⟩))
  · refine (PagePool.releaseRuns_runs _ _ _).trans (if_neg fun own => ?_)
    obtain ⟨r, hr, own⟩ := PagePool.ownedBy_iff.1 own
    exact other r hr own
  · exact (PagePool.releaseRuns_pageMap _ _ _).trans (if_pos owned)
  · exact (PagePool.releaseRuns_pageMap _ _ _).trans (if_neg notOwned)

/-! ### Naming a run by its first page (R153) -/

theorem PagePool.runAt_eq_none {p : PagePool} {k : Nat}
    (h : ∀ (e : Fin 64) r, p.runs[e] = some r → r.first ≠ k) : p.runAt k = none := by
  have none_starts : p.entryAt k = none := by
    refine List.find?_eq_none.2 fun e _ => ?_
    split
    · next r hr => simpa using h e r hr
    · simp
  simp only [PagePool.runAt, none_starts]

theorem PagePool.runAt_eq_some {p : PagePool} {k : Nat} {e : Fin 64} {r : Run} (hr : p.runs[e] = some r)
    (start : r.first = k) (one : ∀ (f : Fin 64) q, p.runs[f] = some q → q.first = k → f = e) :
    p.runAt k = some (e, r) := by
  have entry : p.entryAt k = some e := by
    cases h : p.entryAt k with
    | none =>
      have := List.find?_eq_none.1 h e (List.mem_finRange e)
      simp [hr, start] at this
    | some f =>
      have starts := List.find?_some h
      split at starts
      · next q hq => rw [one f q hq (by simpa using starts)]
      · cases starts
  simp only [PagePool.runAt, entry, hr, Option.map_some]

/-- A serving with nobody waiting changes nothing (R150). -/
theorem serve_of_no_waiter {s : State} (h : s.pool.waitQueue = []) : serve s = s := by
  simp only [serve, serveCount, h, List.length_nil, serveRounds]

/-- What PAGE.GIVE of a page answers once its target is named (R154). -/
def State.giveRun (s : State) (x : Slot) (page : Byte) (t : Slot) : Reply :=
  match s.ownRun x page with
  | .error r => refuse r s
  | .ok (e, run) => done [] (s.updPool fun q => { q with runs := q.runs.set e (some { run with owner := t }) })

/-- PAGE.GIVE of a page of the pool by the caller (R154). -/
theorem exec_pageGive {s : State} {p : Port} {x : Slot} {page lo hi : Byte} (caller : s.IsCaller p x)
    (h : s.Submitted p .pageGive [page, lo, hi]) (inside : page.toNat < s.pool.size) :
    exec (.pageGive p) s = .next (complete p (withTask (hi ++ lo) s (s.giveRun x page))) := by
  simp only [exec, execPageGive, command_eq_complete h, withCaller_of_isCaller caller, if_neg (Nat.not_le.2 inside)]
  rfl

/-- Settles O47: the three commands run their bodies on the submitted bytes. -/
theorem pageGiveQueryAndConfig : Obligations.PageGiveQueryAndConfig := by
  intro p s page start
  refine ⟨?_, ?_, ?_⟩
  · intro x lo hi caller h v
    refine ⟨fun malformed => ?_, fun t inside slot bound stale => ?_, fun t inside current live d => ⟨fun no_run => ?_,
      fun e r hr starts one => ⟨fun other => ?_, fun own => ?_⟩⟩⟩
    · by_cases inside : s.pool.size ≤ page.toNat
      · simp only [exec, execPageGive]
        exact command_refuses (r := .badParam) h (by simp only [withCaller_of_isCaller caller, if_pos inside])
      · rw [exec_pageGive caller h (Nat.not_le.1 inside), withTask_malformed (malformed.resolve_left inside), complete_refuse]
        rfl
    · rw [exec_pageGive caller h inside, withTask_stale (handleSlot_eq_some slot bound) stale, complete_refuse]
      rfl
    all_goals
      rw [exec_pageGive caller h inside, current, withTask, namedTask_handle live d]
    · simp only [State.giveRun, State.ownRun, PagePool.runAt_eq_none no_run, complete_refuse]
      rfl
    · simp only [State.giveRun, State.ownRun, PagePool.runAt_eq_some hr starts one, if_neg other, complete_refuse]
      rfl
    · simp only [State.giveRun, State.ownRun, PagePool.runAt_eq_some hr starts one, if_pos own, complete_done]
      rfl
  · intro h pool
    have run (inside : page.toNat < s.pool.size) :
        exec (.pageQuery p) s = .next (s.completed p 0x00 (s.pageSnapshot page.toNat)) := by
      simp only [exec, execPageQuery]
      exact command_carriesOut h (by simp only [if_neg (Nat.not_le.2 inside)])
    refine ⟨fun outside => ?_, fun inside free => ?_, fun e r inside entry hr => ?_⟩
    · simp only [exec, execPageQuery]
      exact command_refuses (r := .badParam) h (by simp only [if_pos outside])
    · rw [run inside]
      simp only [State.pageSnapshot, free]
      rfl
    · rw [run inside]
      simp only [State.pageSnapshot, entry, Option.bind_some, hr]
      rfl
  · intro h
    have runs_iff : s.pool.runList ≠ [] ↔ ∃ e : Fin 64, s.pool.runs[e] ≠ none := by
      simp only [PagePool.runList_eq, ne_eq, List.filterMap_eq_nil_iff, List.mem_finRange, true_implies, not_forall]
    refine ⟨fun range => ?_, fun positive small => ⟨fun busy => ?_, fun no_runs nobody => ?_⟩⟩
    all_goals simp only [exec, execPageConfig]
    · exact command_refuses (r := .badParam) h (by simp only [if_pos range])
    all_goals have range : ¬(page = 0 ∨ 128 < page.toNat) := not_or.2 ⟨positive, Nat.not_lt.2 small⟩
    · exact command_refuses (r := .wrongState) h (by simp only [if_neg range, runs_iff, if_pos busy])
    · have idle : ¬((∃ e : Fin 64, s.pool.runs[e] ≠ none) ∨ s.pool.waitQueue ≠ []) := by
        rintro (⟨e, he⟩ | hq)
        · exact he (no_runs e)
        · exact hq nobody
      refine command_carriesOut h ?_
      simp only [if_neg range, runs_iff, if_neg idle]
      rw [serve_of_no_waiter (by exact nobody)]
      rfl

end Sys2Proof.Machine

/-! ## Frame: what the commands on tasks leave of the objects -/

namespace Sys2Proof.Machine

/-- The objects, the Tick Unit, the Page Pool, the RST level and the free-value counter are the same. -/
structure ObjectsKept (s u : State) : Prop where
  exchanges : u.exchanges = s.exchanges
  freeCells : u.freeCells = s.freeCells
  time : u.time = s.time
  lines : u.lines = s.lines
  pool : u.pool = s.pool
  rst : u.rst = s.rst
  draws : u.draws = s.draws

theorem ObjectsKept.refl (s : State) : ObjectsKept s s := ⟨rfl, rfl, rfl, rfl, rfl, rfl, rfl⟩

theorem ObjectsKept.trans {a b c : State} (h : ObjectsKept a b) (k : ObjectsKept b c) : ObjectsKept a c :=
  ⟨k.1.trans h.1, k.2.trans h.2, k.3.trans h.3, k.4.trans h.4, k.5.trans h.5, k.6.trans h.6, k.7.trans h.7⟩

theorem DispatchFrame.objectsKept {s u : State} (h : DispatchFrame s u) : ObjectsKept s u :=
  ⟨h.exchanges, h.freeCells, h.time, h.lines, h.pool, h.rst, h.draws⟩

theorem ObjectsKept.updTask (s : State) (t : Slot) (f : TaskRecord → TaskRecord) : ObjectsKept s (s.updTask t f) :=
  ⟨rfl, rfl, rfl, rfl, rfl, rfl, rfl⟩

theorem ObjectsKept.updPort (s : State) (p : Port) (f : PortRecord → PortRecord) : ObjectsKept s (s.updPort p f) := by
  cases p <;> exact ⟨rfl, rfl, rfl, rfl, rfl, rfl, rfl⟩

theorem ObjectsKept.setDisposition (s : State) (p : Port) (d : Disposition) : ObjectsKept s (s.setDisposition p d) :=
  ObjectsKept.updPort s p fun r => { r with occ := { r.occ with disposition := some d } }

theorem ObjectsKept.redecide (p : Port) (gone : Bool) (s : State) : ObjectsKept s (redecide p gone s) :=
  (redecide_frame p gone s).objectsKept

theorem ObjectsKept.done {s u : State} (h : ObjectsKept s u) (bytes : List Byte) : ObjectsKept s (done bytes u).state := h

theorem ObjectsKept.refuse (r : Result) (s : State) : ObjectsKept s (refuse r s).state := .refl s

theorem ObjectsKept.completed (s : State) (p : Port) (code : Byte) (bytes : List Byte) :
    ObjectsKept s (s.completed p code bytes) := .updPort s p _

/-- A command leaves what its body leaves. -/
theorem ObjectsKept.command {p : Port} {c : CommandCode} {body : List Byte → State → Reply} {s u : State}
    (h : ∀ params, ObjectsKept s (body params s).state) (e : command p c body s = .next u) : ObjectsKept s u := by
  unfold Machine.command take at e
  split at e
  · cases e; exact .refl s
  · split at e
    · cases e
      simp only [complete_eq_completed]
      exact (h _).trans (.completed _ _ _ _)
    · cases e; exact .refl s

/-- A command on a named task leaves what it leaves of each task it can name. -/
theorem ObjectsKept.withTask {s : State} {k : Slot → Reply} (h : ∀ t, ObjectsKept s (k t).state) (v : Half) :
    ObjectsKept s (withTask v s k).state := by
  unfold Machine.withTask
  split
  · exact .refuse _ s
  · exact h _

theorem ObjectsKept.withCaller {s : State} {k : Slot → Reply} (h : ∀ t, ObjectsKept s (k t).state) (p : Port) :
    ObjectsKept s (withCaller p s k).state := by
  unfold Machine.withCaller
  split
  · exact .refuse _ s
  · exact h _

/-! ### The operations of the task commands -/

theorem unqueue_objectsKept (t : Slot) (s : State) : ObjectsKept s (unqueue t s) := (unqueue_frame t s).objectsKept

theorem becomeHeld_objectsKept (t : Slot) (s : State) : ObjectsKept s (becomeHeld t s) := by
  unfold becomeHeld; exact .updTask _ _ _

theorem setHoldFlag_objectsKept (t : Slot) (s : State) : ObjectsKept s (setHoldFlag t s) := by
  unfold setHoldFlag; exact .updTask _ _ _

theorem clearHoldFlag_objectsKept (t : Slot) (s : State) : ObjectsKept s (clearHoldFlag t s) := by
  unfold clearHoldFlag; exact .updTask _ _ _

theorem holdOccupant_objectsKept (p : Port) (t : Slot) (s : State) : ObjectsKept s (holdOccupant p t s) :=
  ((ObjectsKept.updTask s t _).trans (.setDisposition _ _ _)).trans (.redecide _ _ _)

theorem holdTask_objectsKept (t : Slot) (s : State) : ObjectsKept s (holdTask t s).state := by
  unfold holdTask
  split
  case h_4 => exact ((unqueue_objectsKept t s).trans (becomeHeld_objectsKept _ _)).done _
  case h_5 =>
    split
    · exact ((becomeHeld_objectsKept t s).trans (.redecide _ _ _)).done _
    · exact (becomeHeld_objectsKept t s).done _
  case h_6 =>
    split
    · exact .refuse _ s
    · exact (setHoldFlag_objectsKept t s).done _
  case h_7 =>
    split
    · exact .refuse _ s
    · split
      case h_5 =>
        split
        · exact .refuse _ s
        · exact (setHoldFlag_objectsKept t s).done _
      case h_6 | h_7 => exact .refuse _ s
      all_goals exact (holdOccupant_objectsKept _ t s).done _
  all_goals exact .refuse _ s

theorem releaseTask_objectsKept (t : Slot) (s : State) : ObjectsKept s (releaseTask t s).state := by
  unfold releaseTask
  split
  case h_5 => exact ((ObjectsKept.updTask _ _ _).trans (readyTail_frame _ _).objectsKept).done _
  case h_6 =>
    split
    · exact (clearHoldFlag_objectsKept t s).done _
    · exact .refuse _ s
  case h_7 =>
    split
    · exact .refuse _ s
    · split
      case h_1 => exact (((ObjectsKept.updTask _ _ _).trans (.setDisposition _ _ _)).trans (.redecide _ _ _)).done _
      case h_2 =>
        split
        · exact (clearHoldFlag_objectsKept t s).done _
        · exact .refuse _ s
      all_goals exact .refuse _ s
  all_goals exact .refuse _ s

theorem setAffinity_objectsKept (t : Slot) (a : Affinity) (s : State) : ObjectsKept s (setAffinity t a s).state := by
  unfold setAffinity
  simp only
  have written := ObjectsKept.updTask s t fun r => { r with affinity := a }
  split
  case h_1 | h_2 => exact .refuse _ s
  case h_3 =>
    split
    · exact written.done _
    · exact (written.trans (place_frame _ _).objectsKept).done _
  all_goals exact written.done _

theorem writeOffer_objectsKept (p : Port) (k : OfferKind) (y : Option Slot) (s : State) :
    ObjectsKept s (writeOffer p k y s) := by
  unfold writeOffer State.raise State.updOcc
  exact (ObjectsKept.updPort _ _ _).trans (.updPort _ _ _)

theorem offerTask_objectsKept (p : Port) (t : Slot) (s : State) : ObjectsKept s (offerTask p t s) :=
  ((unqueue_objectsKept t s).trans (.updTask _ _ _)).trans (writeOffer_objectsKept _ _ _ _)

theorem yieldPort_objectsKept (p : Port) (x : Slot) (s : State) : ObjectsKept s (yieldPort p x s) := by
  unfold yieldPort
  split
  · exact .refl s
  · split
    case h_3 => exact (ObjectsKept.setDisposition _ _ _).trans (.redecide _ _ _)
    case h_1 | h_2 => exact (ObjectsKept.setDisposition _ _ _).trans (offerTask_objectsKept _ _ _)
    all_goals exact .refl s

theorem sliceExpired_objectsKept (p : Port) (x : Slot) (s : State) : ObjectsKept s (sliceExpired p x s) := by
  unfold sliceExpired
  split
  · exact (ObjectsKept.setDisposition _ _ _).trans (offerTask_objectsKept _ _ _)
  · exact .updTask _ _ _

theorem countQuantum_objectsKept (p : Port) (s : State) : ObjectsKept s (countQuantum p s) := by
  unfold countQuantum
  split
  · split
    · exact .refl s
    · next x _ =>
      have counted := ObjectsKept.updTask s x fun r => { r with remaining := r.remaining - 1 }
      simp only
      split
      · exact counted.trans (sliceExpired_objectsKept _ _ _)
      · exact counted
  · exact .refl s

/-- Settles O53: each command's body keeps the objects, and so does its completion. -/
theorem taskCommandsLeaveTheObjects : Obligations.TaskCommandsLeaveTheObjects := by
  intro p c s u hc e
  suffices h : ObjectsKept s u from ⟨h.exchanges, h.freeCells, h.time, h.lines, h.pool, h.rst, h.draws⟩
  simp only [List.mem_cons, List.not_mem_nil, or_false] at hc
  obtain rfl | rfl | rfl | rfl | rfl | rfl | rfl | rfl | rfl | rfl := hc
  · simp only [exec, execTaskCreate] at e
    refine .command (fun params => ?_) e
    split
    · split
      · split
        · exact .refuse _ s
        · exact (ObjectsKept.updTask _ _ _).done _
      · exact .refuse _ s
    · exact .refuse _ s
  · simp only [exec, execTaskStart] at e
    refine .command (fun params => ?_) e
    split
    · refine .withTask (fun t => ?_) _
      split
      · exact (readyTail_frame t s).objectsKept.done _
      · exact .refuse _ s
    · exact .refuse _ s
  · simp only [exec, execTaskHold] at e
    refine .command (fun params => ?_) e
    split
    · exact .withTask (fun t => holdTask_objectsKept t s) _
    · exact .refuse _ s
  · simp only [exec, execTaskRelease] at e
    refine .command (fun params => ?_) e
    split
    · exact .withTask (fun t => releaseTask_objectsKept t s) _
    · exact .refuse _ s
  · simp only [exec, execTaskSetaff] at e
    refine .command (fun params => ?_) e
    split
    · split
      · exact .refuse _ s
      · exact .withTask (fun t => setAffinity_objectsKept t _ s) _
    · exact .refuse _ s
  · simp only [exec, execTaskSetctx] at e
    refine .command (fun params => ?_) e
    split
    · refine .withTask (fun t => ?_) _
      split
      · exact (ObjectsKept.updTask _ _ _).done _
      · exact .refuse _ s
    · exact .refuse _ s
  · simp only [exec, execTaskQuery] at e
    refine .command (fun params => ?_) e
    split
    · exact .withTask (fun t => (ObjectsKept.refl s).done _) _
    · exact .refuse _ s
  · simp only [exec, execTaskSelf] at e
    refine .command (fun params => ?_) e
    split
    · exact .withCaller (fun x => (ObjectsKept.refl s).done _) _
    · exact .refuse _ s
  · simp only [exec, execTaskYield] at e
    refine .command (fun params => ?_) e
    split
    · exact .withCaller (fun x => (yieldPort_objectsKept p x s).done _) _
    · exact .refuse _ s
  · simp only [exec, execSliceExpiry] at e
    split at e
    · cases e; exact countQuantum_objectsKept p s
    · cases e; exact .refl s

end Sys2Proof.Machine

/-! ## The Dispatcher's records and the places of the tasks (R29, R45, R47)

`State.Arranged` says that queues, occupants and incomings agree with a map of places. The places of a lawful state are
the states of its tasks; in the middle of an operation a task can be nowhere, and the map says so. -/

namespace Sys2Proof.Machine

/-! ### The map of places -/

/-- The state of each slot's task. -/
def State.states (s : State) (t : Slot) : TaskState := (s.task t).state

/-- The Dispatcher has the task nowhere: in no queue, on no port and in no offer. -/
def TaskState.Away (x : TaskState) : Prop := x ≠ .ready ∧ x ≠ .running ∧ x ≠ .selected

/-- Queues, occupants and incomings are those of a map of places: READY tasks each once in the queue of their priority
(R29), RUNNING ones occupants of one port (R45), SELECTED ones the incoming of one SWITCH offer (R47). -/
structure State.Arranged (s : State) (place : Slot → TaskState) : Prop where
  queues : ∀ t level, (s.queue level).count t = if place t = .ready ∧ (s.task t).priority = level then 1 else 0
  occupants : ∀ t, place t = .running ↔ ∃ p, (s.port p).occ.occupant = some t
  oneOccupied : ∀ t p q, (s.port p).occ.occupant = some t → (s.port q).occ.occupant = some t → p = q
  incomings : ∀ t, place t = .selected ↔ ∃ p, s.isIncoming p t = true
  oneIncoming : ∀ t p q, s.isIncoming p t = true → s.isIncoming q t = true → p = q

/-- The records of one port agree with each other (R45, R48, R49). -/
structure PortRecord.Fits (r : PortRecord) : Prop where
  disposition : r.occ.DispositionFits
  quiet : r.QuietWhenDisabled
  continues : ∀ o, r.occ.offer = some o → o.kind = .continueTask → o.incoming = r.occ.occupant

theorem exists_port {f : Port → Prop} : (∃ p, f p) ↔ f .A ∨ f .B :=
  ⟨fun ⟨p, h⟩ => by cases p; exacts [.inl h, .inr h], fun h => h.elim (⟨.A, ·⟩) (⟨.B, ·⟩)⟩

/-- One port at most, said of the two ports. -/
theorem at_most_one_port {f : Port → Prop} : (∀ p q, f p → f q → p = q) ↔ ¬(f .A ∧ f .B) := by
  constructor
  · rintro h ⟨a, b⟩
    cases h _ _ a b
  intro h p q hp hq
  cases p <;> cases q
  · rfl
  · exact absurd ⟨hp, hq⟩ h
  · exact absurd ⟨hq, hp⟩ h
  · rfl

theorem State.dispatcherLaw_iff {s : State} : s.DispatcherLaw ↔ s.Arranged s.states ∧ ∀ p, (s.port p).Fits := by
  constructor
  · intro h
    refine ⟨⟨h.queues, fun t => ?_, fun t => ?_, fun t => ?_, fun t => ?_⟩,
      fun p => ⟨h.dispositions p, h.quiet p, h.continues p⟩⟩
    · exact (h.occupants t).1.trans (exists_port (f := fun p => (s.port p).occ.occupant = some t)).symm
    · exact at_most_one_port.2 (h.occupants t).2
    · exact (h.incomings t).1.trans (exists_port (f := fun p => s.isIncoming p t = true)).symm
    · exact at_most_one_port.2 (h.incomings t).2
  · rintro ⟨a, f⟩
    exact ⟨a.queues, fun t => ⟨(a.occupants t).trans exists_port, at_most_one_port.1 (a.oneOccupied t)⟩,
      fun t => ⟨(a.incomings t).trans exists_port, at_most_one_port.1 (a.oneIncoming t)⟩,
      fun p => (f p).disposition, fun p => (f p).quiet, fun p => (f p).continues⟩

theorem State.DispatcherLaw.arranged {s : State} (h : s.DispatcherLaw) : s.Arranged s.states := (State.dispatcherLaw_iff.1 h).1

theorem State.DispatcherLaw.fits {s : State} (h : s.DispatcherLaw) (p : Port) : (s.port p).Fits :=
  (State.dispatcherLaw_iff.1 h).2 p

/-- Two maps of places that the Dispatcher's records cannot tell apart. -/
def SamePlaces (a b : Slot → TaskState) : Prop := ∀ t, a t = b t ∨ ((a t).Away ∧ (b t).Away)

/-- Arrangement reads the queues, the priorities, the occupants and the incomings, and the places up to being away. -/
theorem State.Arranged.congr {s u : State} {a b : Slot → TaskState} (h : s.Arranged a)
    (queues : ∀ l, u.queue l = s.queue l) (priority : ∀ t, (u.task t).priority = (s.task t).priority)
    (occupant : ∀ p, (u.port p).occ.occupant = (s.port p).occ.occupant)
    (incoming : ∀ p t, u.isIncoming p t = s.isIncoming p t) (places : SamePlaces a b) : u.Arranged b := by
  have same (t : Slot) (x : TaskState) (hx : ¬x.Away) : b t = x ↔ a t = x := by
    rcases places t with e | ⟨ha, hb⟩
    · rw [e]
    · exact ⟨fun e => absurd (e ▸ hb) hx, fun e => absurd (e ▸ ha) hx⟩
  have ready (t : Slot) := same t .ready (by simp [TaskState.Away])
  have running (t : Slot) := same t .running (by simp [TaskState.Away])
  have selected (t : Slot) := same t .selected (by simp [TaskState.Away])
  exact
    { queues := fun t l => by simp only [queues, priority, ready, h.queues]
      occupants := fun t => by simp only [running, occupant, h.occupants]
      oneOccupied := by simpa only [occupant] using h.oneOccupied
      incomings := fun t => by simp only [selected, incoming, h.incomings]
      oneIncoming := by simpa only [incoming] using h.oneIncoming }

theorem SamePlaces.refl (a : Slot → TaskState) : SamePlaces a a := fun _ => .inl rfl

theorem State.Arranged.places {s : State} {a b : Slot → TaskState} (h : s.Arranged a) (same : SamePlaces a b) :
    s.Arranged b :=
  h.congr (fun _ => rfl) (fun _ => rfl) (fun _ => rfl) (fun _ _ => rfl) same

/-- The places with one task moved. -/
def moveTo (place : Slot → TaskState) (t : Slot) (x : TaskState) (u : Slot) : TaskState := if u = t then x else place u

@[simp] theorem moveTo_self (place : Slot → TaskState) (t : Slot) (x : TaskState) : moveTo place t x t = x := if_pos rfl

theorem moveTo_ne (place : Slot → TaskState) {t u : Slot} (x : TaskState) (h : u ≠ t) : moveTo place t x u = place u :=
  if_neg h

/-- The places once the offer of a port has lost its incoming. -/
def State.vacated (s : State) (p : Port) (place : Slot → TaskState) (u : Slot) : TaskState :=
  if s.isIncoming p u then .held else place u

/-! ### The queues -/

theorem State.Arranged.mem_queue {s : State} {place : Slot → TaskState} (h : s.Arranged place) {t : Slot} {l : Fin 32} :
    t ∈ s.queue l ↔ place t = .ready ∧ (s.task t).priority = l := by
  rw [← List.count_pos_iff, h.queues]
  split <;> simp_all

theorem State.updQueue_isIncoming (s : State) (l : Fin 32) (f : List Slot → List Slot) (p : Port) (t : Slot) :
    (s.updQueue l f).isIncoming p t = s.isIncoming p t := by
  simp only [State.isIncoming, State.updQueue_port]

/-- A task that is away joins the queue of its priority: at any position, told by the count of its entries. -/
theorem State.Arranged.enqueue {s : State} {place : Slot → TaskState} (h : s.Arranged place) {t : Slot}
    (away : (place t).Away) {f : List Slot → List Slot} (hf : ∀ l u, (f l).count u = l.count u + if u = t then 1 else 0) :
    (s.updQueue (s.task t).priority f).Arranged (moveTo place t .ready) where
  queues u l := by
    rw [State.updQueue_queue, State.updQueue_task]
    by_cases same : u = t
    · subst same
      have none_before := h.queues u l
      simp only [away.1, false_and, if_false] at none_before
      split
      · next e => subst e; rw [hf, none_before]; simp
      · next e => rw [none_before]; simp [e]
    · rw [moveTo_ne _ _ same, ← h.queues u l]
      split
      · next e => subst e; rw [hf, if_neg same, Nat.add_zero]
      · rfl
  occupants u := by
    simp only [State.updQueue_port, ← h.occupants]
    by_cases same : u = t
    · subst same; simp [away.2.1]
    · rw [moveTo_ne _ _ same]
  oneOccupied := by simpa only [State.updQueue_port] using h.oneOccupied
  incomings u := by
    simp only [State.updQueue_isIncoming, ← h.incomings]
    by_cases same : u = t
    · subst same; simp [away.2.2]
    · rw [moveTo_ne _ _ same]
  oneIncoming := by simpa only [State.updQueue_isIncoming] using h.oneIncoming

/-- A READY task leaves its queue. -/
theorem State.Arranged.unqueue {s : State} {place : Slot → TaskState} (h : s.Arranged place) {t : Slot}
    (ready : place t = .ready) : (unqueue t s).Arranged (moveTo place t .held) where
  queues u l := by
    rw [Machine.unqueue, State.updQueue_queue, State.updQueue_task]
    by_cases same : u = t
    · subst same
      have one_before := h.queues u l
      split
      · next e => subst e; rw [List.count_erase_self, one_before]; simp [ready]
      · next e => rw [one_before]; simp [e]
    · rw [moveTo_ne _ _ same, ← h.queues u l]
      split
      · next e => subst e; exact List.count_erase_of_ne same
      · rfl
  occupants u := by
    simp only [Machine.unqueue, State.updQueue_port, ← h.occupants]
    by_cases same : u = t
    · subst same; simp [ready]
    · rw [moveTo_ne _ _ same]
  oneOccupied := by simpa only [Machine.unqueue, State.updQueue_port] using h.oneOccupied
  incomings u := by
    simp only [Machine.unqueue, State.updQueue_isIncoming, ← h.incomings]
    by_cases same : u = t
    · subst same; simp [ready]
    · rw [moveTo_ne _ _ same]
  oneIncoming := by simpa only [Machine.unqueue, State.updQueue_isIncoming] using h.oneIncoming

theorem State.setTaskState_isIncoming (s : State) (t : Slot) (x : TaskState) (p : Port) (u : Slot) :
    (s.setTaskState t x).isIncoming p u = s.isIncoming p u := by
  simp only [State.isIncoming, State.setTaskState_port]

/-- The Dispatcher's records do not read the state a task's record has. -/
theorem State.Arranged.setTaskState {s : State} {place : Slot → TaskState} (h : s.Arranged place) (t : Slot)
    (x : TaskState) : (s.setTaskState t x).Arranged place :=
  h.congr (by simp) (fun u => by rw [State.setTaskState_task]; split <;> simp_all) (by simp)
    (s.setTaskState_isIncoming t x) (.refl _)

theorem State.setTaskState_states (s : State) (t : Slot) (x : TaskState) :
    (s.setTaskState t x).states = moveTo s.states t x := by
  funext u
  simp only [State.states, State.setTaskState_task, moveTo, eq_comm (a := t)]
  split <;> rfl

theorem State.Arranged.enterTail {s : State} {place : Slot → TaskState} (h : s.Arranged place) {t : Slot}
    (away : (place t).Away) : (enterTail t s).Arranged (moveTo place t .ready) :=
  (h.enqueue away fun l u => by rw [List.count_append, List.count_singleton]; simp only [beq_iff_eq, @eq_comm _ u t]).setTaskState _ _

theorem State.Arranged.enterHead {s : State} {place : Slot → TaskState} (h : s.Arranged place) {t : Slot}
    (away : (place t).Away) : (enterHead t s).Arranged (moveTo place t .ready) :=
  (h.enqueue away fun l u => by rw [List.count_cons]; simp only [beq_iff_eq, @eq_comm _ u t]).setTaskState _ _

theorem enterTail_states (t : Slot) (s : State) : (enterTail t s).states = moveTo s.states t .ready :=
  State.setTaskState_states _ _ _

theorem enterHead_states (t : Slot) (s : State) : (enterHead t s).states = moveTo s.states t .ready :=
  State.setTaskState_states _ _ _

/-! ### Offers -/

/-- The offer that a posting or a revision writes (R47). -/
def State.offerOf (s : State) (p : Port) (k : OfferKind) (y : Option Slot) : Offer :=
  { sequence := (s.port p).occ.sequence + 1
    kind := k
    incoming := y
    incomingContext := y.map fun t => (s.task t).context
    outgoingContext := (s.port p).occ.occupant.map fun t => (s.task t).context
    delivery := y.bind fun t => (s.task t).delivery }

theorem writeOffer_occ (p : Port) (k : OfferKind) (y : Option Slot) (s : State) (q : Port) :
    ((writeOffer p k y s).port q).occ =
      if p = q then { (s.port p).occ with sequence := (s.port p).occ.sequence + 1, offer := some (s.offerOf p k y) }
      else (s.port q).occ := by
  simp only [writeOffer, State.raise_port, State.updOcc_port]
  by_cases e : p = q
  · subst e; simp only [if_true, PortRecord.raise_occ]; rfl
  · simp only [if_neg e]

@[simp] theorem writeOffer_task (p : Port) (k : OfferKind) (y : Option Slot) (s : State) (t : Slot) :
    (writeOffer p k y s).task t = s.task t := by
  simp [writeOffer]

@[simp] theorem writeOffer_queue (p : Port) (k : OfferKind) (y : Option Slot) (s : State) (l : Fin 32) :
    (writeOffer p k y s).queue l = s.queue l := by
  simp [writeOffer]

@[simp] theorem writeOffer_states (p : Port) (k : OfferKind) (y : Option Slot) (s : State) :
    (writeOffer p k y s).states = s.states := by
  funext t; simp [State.states]

@[simp] theorem writeOffer_occupant (p : Port) (k : OfferKind) (y : Option Slot) (s : State) (q : Port) :
    ((writeOffer p k y s).port q).occ.occupant = (s.port q).occ.occupant := by
  rw [writeOffer_occ]; split <;> simp_all

@[simp] theorem writeOffer_disposition (p : Port) (k : OfferKind) (y : Option Slot) (s : State) (q : Port) :
    ((writeOffer p k y s).port q).occ.disposition = (s.port q).occ.disposition := by
  rw [writeOffer_occ]; split <;> simp_all

theorem writeOffer_offer (p : Port) (k : OfferKind) (y : Option Slot) (s : State) (q : Port) :
    ((writeOffer p k y s).port q).occ.offer = if p = q then some (s.offerOf p k y) else (s.port q).occ.offer := by
  rw [writeOffer_occ]; split <;> rfl

@[simp] theorem writeOffer_lifecycle (p : Port) (k : OfferKind) (y : Option Slot) (s : State) (q : Port) :
    ((writeOffer p k y s).port q).lifecycle = (s.port q).lifecycle := by
  simp only [writeOffer, State.raise_port, State.updOcc_port]
  by_cases e : p = q
  · subst e; simp
  · simp only [if_neg e]

theorem writeOffer_next (p : Port) (k : OfferKind) (y : Option Slot) (s : State) (q : Port) :
    (writeOffer p k y s).next q = if p = q then y else s.next q := by
  by_cases e : p = q
  · simp only [State.next, writeOffer_offer, if_pos e]; rfl
  · simp only [State.next, writeOffer_offer, writeOffer_occupant, if_neg e]

theorem writeOffer_isIncoming (p : Port) (k : OfferKind) (y : Option Slot) (s : State) (q : Port) (t : Slot) :
    (writeOffer p k y s).isIncoming q t = if p = q then (k == .switchTask && y == some t) else s.isIncoming q t := by
  by_cases e : p = q
  · simp only [State.isIncoming, writeOffer_offer, if_pos e]; rfl
  · simp only [State.isIncoming, writeOffer_offer, if_neg e]

/-- An offer that claims no task: the port's incoming is away. -/
theorem State.Arranged.writeOffer_none {s : State} {place : Slot → TaskState} (h : s.Arranged place) (p : Port)
    {k : OfferKind} {y : Option Slot} (none_claimed : k = .continueTask ∨ y = none) :
    (writeOffer p k y s).Arranged (s.vacated p place) := by
  have incoming (q : Port) (t : Slot) :
      (writeOffer p k y s).isIncoming q t = true ↔ p ≠ q ∧ s.isIncoming q t = true := by
    rw [writeOffer_isIncoming]
    split
    · rcases none_claimed with rfl | rfl <;> simp_all
    · simp_all
  refine ⟨fun t l => ?_, fun t => ?_, ?_, fun t => ?_, fun t q r hq hr => ?_⟩
  · rw [writeOffer_queue, writeOffer_task, h.queues, State.vacated]
    by_cases e : s.isIncoming p t = true
    · simp [e, (h.incomings t).2 ⟨p, e⟩]
    · simp [e]
  · simp only [writeOffer_occupant, ← h.occupants, State.vacated]
    by_cases e : s.isIncoming p t = true
    · simp [e, (h.incomings t).2 ⟨p, e⟩]
    · simp [e]
  · simpa only [writeOffer_occupant] using h.oneOccupied
  · simp only [incoming, State.vacated]
    constructor
    · intro e
      split at e
      · cases e
      · next not_p =>
        obtain ⟨q, hq⟩ := (h.incomings t).1 e
        exact ⟨q, fun e => not_p (e ▸ hq), hq⟩
    · rintro ⟨q, ne, hq⟩
      rw [if_neg fun hp => ne (h.oneIncoming t p q hp hq)]
      exact (h.incomings t).2 ⟨q, hq⟩
  · exact h.oneIncoming t q r ((incoming q t).1 hq).2 ((incoming r t).1 hr).2

/-- A SWITCH offer that claims a task that is away, or that was the port's incoming already. -/
theorem State.Arranged.writeOffer_some {s : State} {place : Slot → TaskState} (h : s.Arranged place) (p : Port) {t : Slot}
    (away : (s.vacated p place t).Away) :
    (writeOffer p .switchTask (some t) s).Arranged (moveTo (s.vacated p place) t .selected) := by
  have v := h.writeOffer_none p (k := .switchTask) (y := none) (.inr rfl)
  have incoming (q : Port) (u : Slot) : (writeOffer p .switchTask (some t) s).isIncoming q u = true ↔
      (p = q ∧ t = u) ∨ (writeOffer p .switchTask none s).isIncoming q u = true := by
    simp only [writeOffer_isIncoming]
    split <;> simp_all
  have not_incoming (q : Port) : ¬(writeOffer p .switchTask none s).isIncoming q t = true := fun e =>
    away.2.2 ((v.incomings t).2 ⟨q, e⟩)
  refine ⟨fun u l => ?_, fun u => ?_, ?_, fun u => ?_, fun u q r hq hr => ?_⟩
  · have := v.queues u l
    simp only [writeOffer_queue, writeOffer_task, moveTo] at this ⊢
    rw [this]
    have := away.1
    by_cases e : u = t <;> simp_all
  · have := v.occupants u
    simp only [writeOffer_occupant, moveTo] at this ⊢
    rw [← this]
    have := away.2.1
    by_cases e : u = t <;> simp_all
  · simpa only [writeOffer_occupant] using h.oneOccupied
  · simp only [incoming, moveTo]
    by_cases e : u = t
    · subst e; simp
    · simp [e, Ne.symm e, v.incomings]
  · rw [incoming] at hq hr
    rcases hq with ⟨rfl, rfl⟩ | hq <;> rcases hr with ⟨rfl, e⟩ | hr
    · rfl
    · exact absurd hr (not_incoming r)
    · exact absurd (e ▸ hq) (not_incoming q)
    · exact v.oneIncoming u q r hq hr

theorem offerTask_isIncoming (p : Port) (t : Slot) (s : State) (q : Port) (u : Slot) :
    (offerTask p t s).isIncoming q u = if p = q then some t == some u else s.isIncoming q u := by
  simp only [offerTask, writeOffer_isIncoming, State.setTaskState_isIncoming, unqueue, State.updQueue_isIncoming]
  split <;> simp

@[simp] theorem offerTask_disposition (p : Port) (t : Slot) (s : State) (q : Port) :
    ((offerTask p t s).port q).occ.disposition = (s.port q).occ.disposition := by
  simp [offerTask, unqueue]

theorem offerTask_next (p : Port) (t : Slot) (s : State) (q : Port) :
    (offerTask p t s).next q = if p = q then some t else s.next q := by
  rw [offerTask, writeOffer_next]
  simp only [State.next, State.setTaskState_port, unqueue, State.updQueue_port]

theorem offerTask_states (p : Port) (t : Slot) (s : State) : (offerTask p t s).states = moveTo s.states t .selected := by
  rw [offerTask, writeOffer_states, State.setTaskState_states]
  rfl

/-- A READY task becomes the incoming of a port's offer. -/
theorem State.Arranged.offerTask {s : State} {place : Slot → TaskState} (h : s.Arranged place) (p : Port) {t : Slot}
    (ready : place t = .ready) : (offerTask p t s).Arranged (moveTo (s.vacated p place) t .selected) := by
  have u := (h.unqueue ready).setTaskState t .selected
  refine (u.writeOffer_some p (t := t) ?_).places fun v => ?_
  · simp only [State.vacated, moveTo_self, ite_self]
    simp [TaskState.Away]
  · left
    simp only [moveTo, State.vacated, State.setTaskState_isIncoming, Machine.unqueue, State.updQueue_isIncoming]
    by_cases e : v = t <;> simp [e]

end Sys2Proof.Machine

/-! ## What placement and re-decision keep (R29 to R38, R53 to R58) -/

namespace Sys2Proof.Machine

/-! ### The Dispatcher's own work -/

/-- The dispositions of an occupant that leaves its port whatever is offered (R49). -/
def Disposition.Leaves (d : Disposition) : Prop := d = .wait ∨ d = .held ∨ d = .free

/-- What the Dispatcher does of its own: beside its frame, only READY and SELECTED tasks move, and tasks that it is given to
enter; the dispositions of leaving occupants stay; and a new incoming is permitted on its port. -/
structure Dispatches (enters : Slot → Prop) (s s' : State) : Prop extends frame : DispatchFrame s s' where
  moved : ∀ t, s'.states t = s.states t ∨
    ((enters t ∨ s.states t = .ready ∨ s.states t = .selected) ∧ (s'.states t = .ready ∨ s'.states t = .selected))
  departs : ∀ p d, d.Leaves → ((s'.port p).occ.disposition = some d ↔ (s.port p).occ.disposition = some d)
  permits : ∀ p t, s'.isIncoming p t = true → s.isIncoming p t = true ∨ (s.task t).affinity.permits p = true

theorem Dispatches.refl (enters : Slot → Prop) (s : State) : Dispatches enters s s :=
  ⟨.refl s, fun _ => .inl rfl, fun _ _ _ => .rfl, fun _ _ => .inl⟩

theorem DispatchFrame.affinity {s s' : State} (h : DispatchFrame s s') (t : Slot) :
    (s'.task t).affinity = (s.task t).affinity := by rw [h.task t]

theorem DispatchFrame.priority {s s' : State} (h : DispatchFrame s s') (t : Slot) :
    (s'.task t).priority = (s.task t).priority := by rw [h.task t]

theorem DispatchFrame.eligible {s s' : State} (h : DispatchFrame s s') (p : Port) (t : Slot) :
    s'.eligible p t = s.eligible p t := by
  simp only [State.eligible, h.affinity, h.isEnabled]

theorem DispatchFrame.urgency {s s' : State} (h : DispatchFrame s s') (y : Option Slot) : s'.urgency y = s.urgency y := by
  cases y <;> simp only [State.urgency, h.priority]

theorem Dispatches.trans {enters : Slot → Prop} {a b c : State} (h : Dispatches enters a b) (k : Dispatches enters b c) :
    Dispatches enters a c where
  frame := h.frame.trans k.frame
  moved t := by
    rcases k.moved t with e | ⟨from_b, to_c⟩
    · rw [e]; exact h.moved t
    · refine .inr ⟨?_, to_c⟩
      rcases h.moved t with e | ⟨from_a, -⟩
      · rwa [← e]
      · exact from_a
  departs p d l := (k.departs p d l).trans (h.departs p d l)
  permits p t i := (k.permits p t i).elim (h.permits p t) fun q => .inr (h.frame.affinity t ▸ q)

theorem Dispatches.mono {v w : Slot → Prop} {a b : State} (h : Dispatches v a b) (le : ∀ t, v t → w t) :
    Dispatches w a b where
  frame := h.frame
  moved t := (h.moved t).imp_right fun ⟨l, r⟩ => ⟨l.imp_left (le t), r⟩
  departs := h.departs
  permits := h.permits

/-- Nobody enters. -/
def Nobody (_ : Slot) : Prop := False

/-- A task that was READY or SELECTED is not new to the Dispatcher. -/
theorem Dispatches.absorb {s s' : State} {t : Slot} (h : Dispatches (· = t) s s')
    (inside : s.states t = .ready ∨ s.states t = .selected) : Dispatches Nobody s s' where
  frame := h.frame
  moved u := by
    rcases h.moved u with e | ⟨rfl | l, r⟩
    · exact .inl e
    · exact .inr ⟨.inr inside, r⟩
    · exact .inr ⟨.inr l, r⟩
  departs := h.departs
  permits := h.permits

/-- A place outside the Dispatcher is not moved. -/
theorem Dispatches.states_eq {s s' : State} (h : Dispatches Nobody s s') {t : Slot} (r : s.states t ≠ .ready)
    (k : s.states t ≠ .selected) : s'.states t = s.states t := by
  rcases h.moved t with e | ⟨l, -⟩
  · exact e
  · exact absurd l (by simp [Nobody, r, k])

/-! ### The steps of posting -/

theorem setDisposition_isIncoming (s : State) (p : Port) (d : Disposition) (q : Port) (t : Slot) :
    (s.setDisposition p d).isIncoming q t = s.isIncoming q t := by
  simp only [State.isIncoming, State.setDisposition_port]
  by_cases e : p = q
  · subst e; simp
  · simp [e]

theorem setDisposition_disposition (s : State) (p : Port) (d : Disposition) (q : Port) :
    ((s.setDisposition p d).port q).occ.disposition = if p = q then some d else (s.port q).occ.disposition := by
  rw [State.setDisposition_port]; split <;> rfl

@[simp] theorem setDisposition_occupant (s : State) (p : Port) (d : Disposition) (q : Port) :
    ((s.setDisposition p d).port q).occ.occupant = (s.port q).occ.occupant := by
  rw [State.setDisposition_port]; split <;> simp_all

@[simp] theorem setDisposition_offer (s : State) (p : Port) (d : Disposition) (q : Port) :
    ((s.setDisposition p d).port q).occ.offer = (s.port q).occ.offer := by
  rw [State.setDisposition_port]; split <;> simp_all

@[simp] theorem setDisposition_lifecycle (s : State) (p : Port) (d : Disposition) (q : Port) :
    ((s.setDisposition p d).port q).lifecycle = (s.port q).lifecycle := by
  rw [State.setDisposition_port]; split <;> simp_all

theorem setDisposition_next (s : State) (p : Port) (d : Disposition) (q : Port) :
    (s.setDisposition p d).next q = s.next q := by
  simp only [State.next, setDisposition_offer, setDisposition_occupant]

theorem setDisposition_states (s : State) (p : Port) (d : Disposition) : (s.setDisposition p d).states = s.states := by
  funext t; simp [State.states]

theorem State.Arranged.setDisposition {s : State} {place : Slot → TaskState} (h : s.Arranged place) (p : Port)
    (d : Disposition) : (s.setDisposition p d).Arranged place :=
  h.congr (by simp) (by simp) (by simp) (setDisposition_isIncoming s p d) (.refl _)

/-- A disposition that keeps the occupant in reach replaces another such, or none. -/
theorem setDisposition_dispatches {s : State} {p : Port} {d : Disposition}
    (h : (s.port p).occ.occupant ≠ none ∨ (s.port p).isEnabled = true) (new : ¬d.Leaves)
    (old : ∀ e : Disposition, e.Leaves → (s.port p).occ.disposition ≠ some e) :
    Dispatches Nobody s (s.setDisposition p d) where
  frame := setDisposition_frame s p d h
  moved t := .inl (by rw [setDisposition_states])
  departs q e l := by
    rw [setDisposition_disposition]
    split
    · next same =>
      subst same
      refine iff_of_false ?_ (old e l)
      rintro ⟨⟩
      exact new l
    · rfl
  permits q t i := .inl (setDisposition_isIncoming s p d q t ▸ i)

theorem offerTask_dispatches {p : Port} {t : Slot} {s : State} (enabled : (s.port p).isEnabled = true)
    (ready : s.states t = .ready) (permitted : (s.task t).affinity.permits p = true) :
    Dispatches Nobody s (offerTask p t s) where
  frame := offerTask_frame p t s enabled
  moved u := by
    rw [offerTask_states]
    by_cases e : u = t
    · subst e; exact .inr ⟨.inr (.inl ready), .inr (moveTo_self _ _ _)⟩
    · exact .inl (moveTo_ne _ _ e)
  departs q d _ := by rw [offerTask_disposition]
  permits q u i := by
    rw [offerTask_isIncoming] at i
    split at i
    · next e =>
      subst e
      obtain rfl : t = u := by simpa using i
      exact .inr permitted
    · exact .inl i

theorem writeOffer_dispatches {p : Port} {k : OfferKind} {y : Option Slot} {s : State}
    (enabled : (s.port p).isEnabled = true) (claim : k = .switchTask → ∀ t, y = some t → s.isIncoming p t = true) :
    Dispatches Nobody s (writeOffer p k y s) where
  frame := writeOffer_frame p k y s enabled
  moved u := .inl (by rw [writeOffer_states])
  departs q d _ := by rw [writeOffer_disposition]
  permits q u i := by
    rw [writeOffer_isIncoming] at i
    split at i
    · next e =>
      subst e
      simp only [Bool.and_eq_true, beq_iff_eq] at i
      exact .inl (claim i.1 u i.2)
    · exact .inl i

theorem enter_dispatches {t : Slot} {s s' : State} (frame : DispatchFrame s s') (states : s'.states = moveTo s.states t .ready)
    (ports : ∀ p, (s'.port p).occ = (s.port p).occ) : Dispatches (· = t) s s' where
  frame := frame
  moved u := by
    rw [states]
    by_cases e : u = t
    · subst e; exact .inr ⟨.inl rfl, .inl (moveTo_self _ _ _)⟩
    · exact .inl (moveTo_ne _ _ e)
  departs q d _ := by rw [ports]
  permits q u i := .inl (by simpa only [State.isIncoming, ports] using i)

theorem enterTail_dispatches (t : Slot) (s : State) : Dispatches (· = t) s (enterTail t s) :=
  enter_dispatches (enterTail_frame t s) (enterTail_states t s) (by simp [enterTail])

theorem enterHead_dispatches (t : Slot) (s : State) : Dispatches (· = t) s (enterHead t s) :=
  enter_dispatches (enterHead_frame t s) (enterHead_states t s) (by simp [enterHead])

/-! ### The ports fit -/

theorem PortRecord.Fits.congr {r r' : PortRecord} (h : r.Fits) (occ : r'.occ = r.occ) (life : r'.lifecycle = r.lifecycle) :
    r'.Fits where
  disposition := occ ▸ h.disposition
  quiet d := by rw [occ]; exact h.quiet (life ▸ d)
  continues := by rw [occ]; exact h.continues

/-- The port of a SWITCH offer fits when a disposition is there for a task and is not STAY. -/
theorem writeOffer_switch_fits {p : Port} {y : Option Slot} {s : State} (enabled : (s.port p).isEnabled = true)
    (some_iff : (s.port p).occ.disposition.isSome ↔ (s.port p).occ.occupant.isSome)
    (not_stay : (s.port p).occ.disposition ≠ some .stay) : ((writeOffer p .switchTask y s).port p).Fits where
  disposition := by
    rw [writeOffer_occ, if_pos rfl]
    refine ⟨by simpa using some_iff, fun f hf => ?_⟩
    cases hf
    exact iff_of_false not_stay (by simp [State.offerOf])
  quiet d := by
    rw [writeOffer_lifecycle] at d
    simp [PortRecord.isEnabled, d] at enabled
  continues o ho k := by
    rw [writeOffer_offer, if_pos rfl] at ho
    cases ho
    cases k

theorem writeOffer_port_ne {p q : Port} {k : OfferKind} {y : Option Slot} {s : State} (h : p ≠ q)
    (f : (s.port q).Fits) : ((writeOffer p k y s).port q).Fits :=
  f.congr (by rw [writeOffer_occ, if_neg h]) (writeOffer_lifecycle ..)

theorem setDisposition_fits_ne {p q : Port} {d : Disposition} {s : State} (h : p ≠ q) (f : (s.port q).Fits) :
    ((s.setDisposition p d).port q).Fits := by
  rw [State.setDisposition_port, if_neg h]; exact f

/-- The port of an offered task fits, by the disposition its occupant has. -/
theorem offerTask_fits {p : Port} {t : Slot} {s : State} (enabled : (s.port p).isEnabled = true)
    (some_iff : (s.port p).occ.disposition.isSome ↔ (s.port p).occ.occupant.isSome)
    (not_stay : (s.port p).occ.disposition ≠ some .stay) (others : ∀ q, p ≠ q → (s.port q).Fits) (q : Port) :
    ((offerTask p t s).port q).Fits := by
  have same (r : Port) : (((unqueue t s).setTaskState t .selected).port r) = s.port r := by simp [unqueue]
  by_cases e : p = q
  · subst e
    exact writeOffer_switch_fits (by rwa [same]) (by rwa [same]) (by rwa [same])
  · exact writeOffer_port_ne e (by rw [same]; exact others q e)

/-! ### Placement (R33 to R36) -/

theorem State.displacedBy_eq_some {s : State} {p : Port} {t : Slot} :
    s.displacedBy p = some t ↔ s.isIncoming p t = true := by
  unfold State.displacedBy State.isIncoming
  cases (s.port p).occ.offer with
  | none => simp
  | some o => by_cases k : o.kind = .switchTask <;> simp [k]

theorem State.displacedBy_eq_none {s : State} {p : Port} : s.displacedBy p = none ↔ ∀ t, s.isIncoming p t = false := by
  rw [Option.eq_none_iff_forall_ne_some]
  simp only [ne_eq, State.displacedBy_eq_some, Bool.not_eq_true]

/-- A chosen port is a candidate (R33, R34). -/
theorem choosePort_candidate {s : State} {t : Slot} {p : Port} (h : s.choosePort t = some p) :
    s.isCandidate t p = true := by
  unfold State.choosePort at h
  split at h
  · cases h
  · cases h; assumption
  · cases h; assumption
  · split at h <;> (cases h; assumption)

theorem choosePort_eq_none {s : State} {t : Slot} (h : s.choosePort t = none) (p : Port) :
    s.isCandidate t p = false := by
  unfold State.choosePort at h
  split at h
  · cases p <;> assumption
  · cases h
  · cases h
  · split at h <;> cases h

theorem State.isCandidate_spec {s : State} {t : Slot} {p : Port} :
    s.isCandidate t p = true ↔ s.eligible p t = true ∧ s.urgency (some t) < s.urgency (s.next p) := by
  rw [State.isCandidate, Bool.and_eq_true, decide_eq_true_eq]; rfl

theorem State.eligible_spec {s : State} {t : Slot} {p : Port} :
    s.eligible p t = true ↔ (s.task t).affinity.permits p = true ∧ (s.port p).isEnabled = true := by
  simp [State.eligible]

/-- The task that a port's SWITCH offer has as its incoming is the port's next. -/
theorem State.next_of_isIncoming {s : State} {p : Port} {t : Slot} (h : s.isIncoming p t = true) : s.next p = some t := by
  unfold State.isIncoming at h
  unfold State.next
  cases e : (s.port p).occ.offer with
  | none => simp [e] at h
  | some o => simp [e] at h; exact h.2

/-- The state in which a port is taken: its occupant has the disposition that it then has (R35). -/
def State.preempted (s : State) (p : Port) : State :=
  if (s.port p).occ.occupant.isSome &&
      (match (s.port p).occ.offer with | some o => o.kind == .continueTask | none => true) then
    s.setDisposition p .readyHead
  else s

theorem takePort_eq (p : Port) (t : Slot) (s : State) : takePort p t s = offerTask p t (s.preempted p) := rfl

/-- Preemption changes a disposition at most, one that no leaving occupant has, and the port is then ready for a SWITCH
offer. -/
theorem State.preempted_cases {s : State} {p : Port} (f : (s.port p).Fits) :
    (s.preempted p = s ∨ (s.preempted p = s.setDisposition p .readyHead ∧
        (s.port p).occ.occupant ≠ none ∧ ∀ e : Disposition, e.Leaves → (s.port p).occ.disposition ≠ some e)) ∧
      (((s.preempted p).port p).occ.disposition.isSome ↔ (s.port p).occ.occupant.isSome) ∧
      ((s.preempted p).port p).occ.disposition ≠ some .stay := by
  obtain ⟨fits, stays⟩ := f.disposition
  unfold State.preempted
  cases occupant : (s.port p).occ.occupant with
  | none =>
    have none_given : (s.port p).occ.disposition = none := by simpa [occupant] using fits
    simp [none_given]
  | some x =>
    cases offer : (s.port p).occ.offer with
    | none =>
      have none_given : (s.port p).occ.disposition = none := by simpa [offer] using fits
      simp [setDisposition_disposition, none_given]
    | some o =>
      have given : (s.port p).occ.disposition.isSome := by simp [fits, offer, occupant]
      have stay_iff := stays o offer
      simp only [occupant, Option.isSome_some, and_true] at stay_iff
      cases kind : o.kind with
      | switchTask => simp [given, stay_iff, kind]
      | continueTask =>
        have stay := stay_iff.2 kind
        have stay_not_leaves (e : Disposition) (l : e.Leaves) : ¬Disposition.stay = e := by
          rintro rfl
          simp [Disposition.Leaves] at l
        have given_head : ((s.setDisposition p .readyHead).port p).occ.disposition = some .readyHead := by
          rw [setDisposition_disposition, if_pos rfl]
        simp only [kind, stay, Option.isSome_some, beq_self_eq_true, Bool.and_self, if_true, given_head]
        exact ⟨.inr ⟨trivial, by simp, fun e l h => stay_not_leaves e l (by simpa using h)⟩, by simp, by simp⟩

theorem State.preempted_spec {s : State} (h : s.DispatcherLaw) {p : Port} (enabled : (s.port p).isEnabled = true) :
    (s.preempted p).Arranged s.states ∧ Dispatches Nobody s (s.preempted p) ∧ (s.preempted p).states = s.states ∧
      (∀ q, (s.preempted p).next q = s.next q) ∧ (∀ q t, (s.preempted p).isIncoming q t = s.isIncoming q t) ∧
      ∀ q, ((s.preempted p).port q).occ.occupant = (s.port q).occ.occupant := by
  obtain ⟨e | ⟨e, occupied, old⟩, -⟩ := State.preempted_cases (h.fits p)
  · rw [e]
    exact ⟨h.arranged, .refl _ s, rfl, fun _ => rfl, fun _ _ => rfl, fun _ => rfl⟩
  · rw [e]
    exact ⟨h.arranged.setDisposition p _, setDisposition_dispatches (.inr enabled) (by simp [Disposition.Leaves]) old,
      setDisposition_states s p _, setDisposition_next s p _, setDisposition_isIncoming s p _,
      setDisposition_occupant s p _⟩

/-- Offering a READY task on a port: the task is SELECTED there, and the incoming that stood there is nowhere. -/
theorem takePort_spec {s : State} (h : s.DispatcherLaw) {p : Port} {t : Slot} (ready : s.states t = .ready)
    (eligible : s.eligible p t = true) :
    (takePort p t s).Arranged (moveTo (s.vacated p s.states) t .selected) ∧ (∀ q, ((takePort p t s).port q).Fits) ∧
      Dispatches Nobody s (takePort p t s) ∧ (takePort p t s).states = moveTo s.states t .selected ∧
      ∀ q, (takePort p t s).next q = if p = q then some t else s.next q := by
  obtain ⟨permits, enabled⟩ := State.eligible_spec.1 eligible
  obtain ⟨arranged, work, states, next, incoming, occupant⟩ := State.preempted_spec h enabled
  obtain ⟨cases, some_iff, not_stay⟩ := State.preempted_cases (h.fits p)
  have enabled' : ((s.preempted p).port p).isEnabled = true := by rw [work.isEnabled, enabled]
  rw [takePort_eq]
  refine ⟨(arranged.offerTask p ready).places fun u => .inl ?_, ?_, work.trans (offerTask_dispatches enabled' ?_ ?_), ?_, fun q => ?_⟩
  · simp only [moveTo, State.vacated, incoming]
  · refine offerTask_fits enabled' (by rw [some_iff, occupant]) not_stay fun q ne => ?_
    rcases cases with e | ⟨e, -⟩
    · rw [e]; exact h.fits q
    · rw [e]; exact setDisposition_fits_ne ne (h.fits q)
  · rw [states, ready]
  · rw [work.affinity, permits]
  · rw [offerTask_states, states]
  · rw [offerTask_next, next]

/-- The laws of the Dispatcher, but for one task that it has nowhere, whatever the state of the task's record is. -/
structure State.DispatcherBut (s : State) (t : Slot) : Prop where
  arranged : s.Arranged (moveTo s.states t .held)
  fits : ∀ p, (s.port p).Fits

theorem away_held : TaskState.held.Away := by simp [TaskState.Away]

theorem moveTo_moveTo (place : Slot → TaskState) (t : Slot) (x y : TaskState) :
    moveTo (moveTo place t x) t y = moveTo place t y := by
  funext u; simp only [moveTo]; split <;> rfl

theorem State.DispatcherBut.enterHead {s : State} {t : Slot} (h : s.DispatcherBut t) : (enterHead t s).DispatcherLaw := by
  refine State.dispatcherLaw_iff.2 ⟨?_, fun p => by simpa [Machine.enterHead] using h.fits p⟩
  have a := h.arranged.enterHead (t := t) (by rw [moveTo_self]; exact away_held)
  rwa [moveTo_moveTo, ← enterHead_states] at a

theorem State.DispatcherBut.enterTail {s : State} {t : Slot} (h : s.DispatcherBut t) : (enterTail t s).DispatcherLaw := by
  refine State.dispatcherLaw_iff.2 ⟨?_, fun p => by simpa [Machine.enterTail] using h.fits p⟩
  have a := h.arranged.enterTail (t := t) (by rw [moveTo_self]; exact away_held)
  rwa [moveTo_moveTo, ← enterTail_states] at a

/-- The places once the only incoming of a port is nowhere. -/
theorem State.Arranged.vacated_eq {s : State} {place : Slot → TaskState} {p : Port} {y : Slot}
    (h : s.isIncoming p y = true) : s.vacated p place = moveTo place y .held := by
  funext u
  have same : s.isIncoming p u = true ↔ u = y := by
    refine ⟨fun e => ?_, fun e => e ▸ h⟩
    exact Option.some.inj ((State.next_of_isIncoming e).symm.trans (State.next_of_isIncoming h))
  simp only [State.vacated, moveTo, same]

theorem State.vacated_eq_self {s : State} {place : Slot → TaskState} {p : Port} (h : ∀ u, s.isIncoming p u = false) :
    s.vacated p place = place := by
  funext u; simp [State.vacated, h]

theorem moveTo_comm {t u : Slot} (h : t ≠ u) (place : Slot → TaskState) (x y : TaskState) :
    moveTo (moveTo place t x) u y = moveTo (moveTo place u y) t x := by
  funext v
  simp only [moveTo]
  by_cases a : v = t <;> by_cases b : v = u <;> simp_all

/-- Offering a placed task where nobody is displaced. -/
theorem takePort_dispatcher {s : State} (h : s.DispatcherLaw) {p : Port} {t : Slot} (ready : s.states t = .ready)
    (eligible : s.eligible p t = true) (d : s.displacedBy p = none) : (takePort p t s).DispatcherLaw := by
  obtain ⟨arranged, fits, -, states, -⟩ := takePort_spec h ready eligible
  rw [State.vacated_eq_self (State.displacedBy_eq_none.1 d), ← states] at arranged
  exact State.dispatcherLaw_iff.2 ⟨arranged, fits⟩

/-- Offering a placed task leaves the task it displaces nowhere. -/
theorem takePort_displaces {s : State} (h : s.DispatcherLaw) {p : Port} {t y : Slot} (ready : s.states t = .ready)
    (eligible : s.eligible p t = true) (d : s.displacedBy p = some y) : (takePort p t s).DispatcherBut y := by
  obtain ⟨arranged, fits, -, states, -⟩ := takePort_spec h ready eligible
  have incoming := State.displacedBy_eq_some.1 d
  have ne : y ≠ t := by
    rintro rfl
    have := (h.arranged.incomings y).2 ⟨p, incoming⟩
    rw [ready] at this; cases this
  rw [State.Arranged.vacated_eq incoming, moveTo_comm ne, ← states] at arranged
  exact ⟨arranged, fits⟩

theorem placeRounds_dispatcher (n : Nat) : ∀ (t : Slot) (s : State), s.DispatcherLaw → s.states t = .ready →
    (placeRounds n t s).DispatcherLaw ∧ Dispatches Nobody s (placeRounds n t s) := by
  induction n with
  | zero => exact fun t s h _ => ⟨h, .refl _ s⟩
  | succ n ih =>
    intro t s h ready
    unfold placeRounds
    split
    · exact ⟨h, .refl _ s⟩
    · next p chosen =>
      have eligible := (State.isCandidate_spec.1 (choosePort_candidate chosen)).1
      have work := (takePort_spec h ready eligible).2.2.1
      split
      · next d => exact ⟨takePort_dispatcher h ready eligible d, work⟩
      · next y d =>
        have left := takePort_displaces h ready eligible d
        obtain ⟨law, rest⟩ := ih y _ left.enterHead (by rw [enterHead_states, moveTo_self])
        refine ⟨law, (work.trans ?_).trans rest⟩
        have selected : (takePort p t s).states y = .ready ∨ (takePort p t s).states y = .selected := by
          have was := (h.arranged.incomings y).2 ⟨p, State.displacedBy_eq_some.1 d⟩
          rcases work.moved y with e | ⟨-, now⟩
          · exact .inr (e.trans was)
          · exact now
        exact (enterHead_dispatches y _).absorb selected

end Sys2Proof.Machine

namespace Sys2Proof.Machine

/-! ### Entering a queue and placement -/

theorem place_dispatcher {t : Slot} {s : State} (h : s.DispatcherLaw) (ready : s.states t = .ready) :
    (place t s).DispatcherLaw := (placeRounds_dispatcher 32 t s h ready).1

theorem place_dispatches {t : Slot} {s : State} (h : s.DispatcherLaw) (ready : s.states t = .ready) :
    Dispatches Nobody s (place t s) := (placeRounds_dispatcher 32 t s h ready).2

theorem Dispatches.of_nobody {enters : Slot → Prop} {s s' : State} (h : Dispatches Nobody s s') : Dispatches enters s s' :=
  h.mono fun _ => False.elim

theorem readyTail_dispatcher {t : Slot} {s : State} (h : s.DispatcherBut t) : (readyTail t s).DispatcherLaw :=
  place_dispatcher h.enterTail (by rw [enterTail_states, moveTo_self])

theorem readyHead_dispatcher {t : Slot} {s : State} (h : s.DispatcherBut t) : (readyHead t s).DispatcherLaw :=
  place_dispatcher h.enterHead (by rw [enterHead_states, moveTo_self])

theorem readyTail_dispatches {t : Slot} {s : State} (h : s.DispatcherBut t) : Dispatches (· = t) s (readyTail t s) :=
  (enterTail_dispatches t s).trans (place_dispatches h.enterTail (by rw [enterTail_states, moveTo_self])).of_nobody

theorem readyHead_dispatches {t : Slot} {s : State} (h : s.DispatcherBut t) : Dispatches (· = t) s (readyHead t s) :=
  (enterHead_dispatches t s).trans (place_dispatches h.enterHead (by rw [enterHead_states, moveTo_self])).of_nobody

/-! ### Urgency (R38) -/

/-- No READY task that is eligible for the port is more urgent than its next, some tasks left out of account. -/
def State.UrgentOn (s : State) (p : Port) (exempt : Slot → Prop) : Prop :=
  ∀ t, s.states t = .ready → ¬exempt t → s.eligible p t = true → s.urgency (s.next p) ≤ s.urgency (some t)

theorem State.urgencyLaw_iff {s : State} : s.UrgencyLaw ↔ ∀ p, s.UrgentOn p Nobody :=
  forall_congr' fun _ => forall_congr' fun _ => ⟨fun h r _ e => h r e, fun h r e => h r id e⟩

/-- Urgency is kept where the READY tasks were READY before and the next is at least as urgent. -/
theorem State.UrgentOn.of_frame {s s' : State} {p : Port} {exempt : Slot → Prop} (h : s.UrgentOn p exempt)
    (frame : DispatchFrame s s') (next : s'.urgency (s'.next p) ≤ s.urgency (s.next p))
    (ready : ∀ t, s'.states t = .ready → ¬exempt t → s.states t = .ready) : s'.UrgentOn p exempt := fun t r k e => by
  rw [frame.urgency (some t)]
  exact next.trans (h t (ready t r k) k (frame.eligible p t ▸ e))

/-- An exemption that no READY task has is none. -/
theorem State.UrgentOn.narrow {s : State} {p : Port} {v w : Slot → Prop} (h : s.UrgentOn p v)
    (none_exempt : ∀ t, s.states t = .ready → ¬v t) : s.UrgentOn p w := fun t r _ e => h t r (none_exempt t r) e

theorem State.UrgentOn.mono {s : State} {p : Port} {v w : Slot → Prop} (h : s.UrgentOn p v) (le : ∀ t, v t → w t) :
    s.UrgentOn p w := fun t r k e => h t r (fun l => k (le t l)) e

/-- Entering the head or tail of a queue: the task that enters is the one that may now be too urgent. -/
theorem State.UrgentOn.enter {s s' : State} {p : Port} {t : Slot} (h : s.UrgentOn p (· = t)) (frame : DispatchFrame s s')
    (states : s'.states = moveTo s.states t .ready) (occ : (s'.port p).occ = (s.port p).occ) : s'.UrgentOn p (· = t) :=
  h.of_frame frame (by rw [frame.urgency]; simp only [State.next, occ, le_refl]) fun u r k => by
    rw [states, moveTo_ne _ _ k] at r; exact r

theorem enterTail_urgent {t : Slot} {s : State} {p : Port} (h : s.UrgentOn p (· = t)) :
    (enterTail t s).UrgentOn p (· = t) :=
  h.enter (enterTail_frame t s) (enterTail_states t s) (by simp [enterTail])

theorem enterHead_urgent {t : Slot} {s : State} {p : Port} (h : s.UrgentOn p (· = t)) :
    (enterHead t s).UrgentOn p (· = t) :=
  h.enter (enterHead_frame t s) (enterHead_states t s) (by simp [enterHead])

/-- Taking a port for a task that is more urgent than its next. -/
theorem takePort_urgent {s : State} (h : s.DispatcherLaw) {p : Port} {t : Slot} (ready : s.states t = .ready)
    (candidate : s.isCandidate t p = true) {q : Port} (u : s.UrgentOn q (· = t)) : (takePort p t s).UrgentOn q Nobody := by
  obtain ⟨eligible, lt⟩ := State.isCandidate_spec.1 candidate
  obtain ⟨-, -, work, states, next⟩ := takePort_spec h ready eligible
  have not_t (v : Slot) (r : (takePort p t s).states v = .ready) : v ≠ t := by
    rintro rfl; rw [states, moveTo_self] at r; cases r
  refine (u.of_frame work.frame ?_ fun v r k => ?_).narrow not_t
  · rw [work.frame.urgency, next]
    split
    · next e => subst e; exact lt.le
    · exact le_rfl
  · rwa [states, moveTo_ne _ _ k] at r

/-- With as many rounds as there are levels behind the task's own, the cascade comes to its end. -/
theorem placeRounds_urgent (n : Nat) : ∀ (t : Slot) (s : State), s.DispatcherLaw → s.states t = .ready →
    32 ≤ n + (s.task t).priority.val → (∀ p, s.UrgentOn p (· = t)) → ∀ p, (placeRounds n t s).UrgentOn p Nobody := by
  induction n with
  | zero => intro t s _ _ rounds; exact absurd (s.task t).priority.isLt (by omega)
  | succ n ih =>
    intro t s h ready rounds u p
    unfold placeRounds
    split
    · next none_chosen =>
      intro v r _ e
      by_cases same : v = t
      · subst same
        have no := choosePort_eq_none none_chosen p
        rw [← Bool.not_eq_true, State.isCandidate_spec] at no
        exact Nat.le_of_not_lt fun lt => no ⟨e, lt⟩
      · exact u p v r same e
    · next q chosen =>
      have candidate := choosePort_candidate chosen
      obtain ⟨eligible, lt⟩ := State.isCandidate_spec.1 candidate
      have after (r : Port) : (takePort q t s).UrgentOn r Nobody := takePort_urgent h ready candidate (u r)
      split
      · exact after p
      · next y d =>
        have left := takePort_displaces h ready eligible d
        have frame := ((takePort_frame q t s (choosePort_enabled chosen)).trans (enterHead_frame y _))
        refine ih y _ left.enterHead (by rw [enterHead_states, moveTo_self]) ?_
          (fun r => enterHead_urgent ((after r).mono fun _ => False.elim)) p
        rw [frame.priority]
        rw [State.next_of_isIncoming (State.displacedBy_eq_some.1 d)] at lt
        simp only [State.urgency] at lt
        omega

theorem place_urgent {t : Slot} {s : State} (h : s.DispatcherLaw) (ready : s.states t = .ready)
    (u : ∀ p, s.UrgentOn p (· = t)) : (place t s).UrgencyLaw :=
  State.urgencyLaw_iff.2 (placeRounds_urgent 32 t s h ready (by omega) u)

theorem readyTail_urgent {t : Slot} {s : State} (h : s.DispatcherBut t) (u : ∀ p, s.UrgentOn p (· = t)) :
    (readyTail t s).UrgencyLaw :=
  place_urgent h.enterTail (by rw [enterTail_states, moveTo_self]) fun p => enterTail_urgent (u p)

theorem readyHead_urgent {t : Slot} {s : State} (h : s.DispatcherBut t) (u : ∀ p, s.UrgentOn p (· = t)) :
    (readyHead t s).UrgencyLaw :=
  place_urgent h.enterHead (by rw [enterHead_states, moveTo_self]) fun p => enterHead_urgent (u p)

/-! ### Selection (R32) -/

/-- The queues one after the other are in order of priority. -/
theorem State.Arranged.queues_sorted {s : State} {place : Slot → TaskState} (h : s.Arranged place) :
    s.queues.toList.flatten.Pairwise fun t u => (s.task t).priority ≤ (s.task u).priority := by
  have level {i : Nat} {hi : i < s.queues.toList.length} {t : Slot} (mem : t ∈ s.queues.toList[i]) :
      (s.task t).priority.val = i := by
    have hi' : i < 32 := by simpa using hi
    have := (h.mem_queue (l := ⟨i, hi'⟩)).1 (by simpa [State.queue] using mem)
    rw [this.2]
  rw [List.pairwise_flatten]
  constructor
  · intro q hq
    obtain ⟨i, hi, rfl⟩ := List.getElem_of_mem hq
    refine List.pairwise_of_forall_mem_list fun t ht u hu => ?_
    rw [Fin.le_def, level ht, level hu]
  · rw [List.pairwise_iff_getElem]
    intro i j hi hj lt t ht u hu
    rw [Fin.le_def, level ht, level hu]
    exact lt.le

theorem State.Arranged.mem_queues {s : State} {place : Slot → TaskState} (h : s.Arranged place) {t : Slot} :
    t ∈ s.queues.toList.flatten ↔ place t = .ready := by
  constructor
  · intro mem
    obtain ⟨q, hq, ht⟩ := List.mem_flatten.1 mem
    obtain ⟨i, hi, rfl⟩ := List.getElem_of_mem hq
    have hi' : i < 32 := by simpa using hi
    exact ((h.mem_queue (l := ⟨i, hi'⟩)).1 (by simpa [State.queue] using ht)).1
  · intro ready
    have mem := (h.mem_queue (t := t) (l := (s.task t).priority)).2 ⟨ready, rfl⟩
    refine List.mem_flatten.2 ⟨_, ?_, mem⟩
    simp [State.queue]

/-- The selection is a READY task that is eligible. -/
theorem State.Arranged.selection_mem {s : State} {place : Slot → TaskState} (h : s.Arranged place) {p : Port} {t : Slot}
    (e : s.selection p = some t) : place t = .ready ∧ s.eligible p t = true :=
  ⟨h.mem_queues.1 (List.mem_of_find?_eq_some e), List.find?_some e⟩

/-- No READY task that is eligible is more urgent than the selection. -/
theorem State.Arranged.selection_urgent {s : State} {place : Slot → TaskState} (h : s.Arranged place) {p : Port} {u : Slot}
    (ready : place u = .ready) (eligible : s.eligible p u = true) : s.urgency (s.selection p) ≤ s.urgency (some u) := by
  have mem := h.mem_queues.2 ready
  cases e : s.selection p with
  | none => exact absurd eligible (List.find?_eq_none.1 e u mem)
  | some t =>
    obtain ⟨-, before, after, split, none_before⟩ := List.find?_eq_some_iff_append.1 e
    have sorted := h.queues_sorted
    rw [split] at mem sorted
    rcases List.mem_append.1 mem with m | m
    · simpa [eligible] using none_before u m
    · rcases List.mem_cons.1 m with rfl | m
      · exact le_rfl
      · exact List.rel_of_pairwise_cons (List.pairwise_append.1 sorted).2.1 m

end Sys2Proof.Machine

/-! ## Re-decision (R53 to R58) -/

namespace Sys2Proof.Machine

/-! ### Before a re-decision -/

/-- The dispositions with which a port can come to its re-decision: those that fit, and that of an occupant that leaves. -/
structure Occupancy.Redecidable (o : Occupancy) : Prop where
  idle : o.occupant = none → o.disposition = none
  settled : o.offer = none → ∀ d, o.disposition = some d → d.Leaves
  switching : ∀ f, o.offer = some f → f.kind = .switchTask → o.occupant ≠ none →
    o.disposition ≠ none ∧ o.disposition ≠ some .stay
  continuing : ∀ f, o.offer = some f → f.kind = .continueTask → o.occupant ≠ none →
    ∃ d, o.disposition = some d ∧ (d = .stay ∨ d.Leaves)

/-- A state in which a port is about to be re-decided: the other ports fit, and where the incoming is gone its record need
not say that it is SELECTED. -/
structure State.Redeciding (s : State) (p : Port) (gone : Bool) (place : Slot → TaskState) : Prop where
  arranged : s.Arranged place
  states : ∀ t, place t = s.states t ∨ (gone = true ∧ s.isIncoming p t = true)
  others : ∀ q, p ≠ q → (s.port q).Fits
  quiet : (s.port p).QuietWhenDisabled
  continues : ∀ o, (s.port p).occ.offer = some o → o.kind = .continueTask → o.incoming = (s.port p).occ.occupant
  redecidable : (s.port p).occ.Redecidable

theorem PortRecord.Fits.redecidable {r : PortRecord} (h : r.Fits) : r.occ.Redecidable := by
  obtain ⟨fits, stays⟩ := h.disposition
  refine ⟨fun o => ?_, fun o d e => ?_, fun f o k occupied => ⟨fun e => ?_, fun e => ?_⟩, fun f o k occupied => ⟨.stay, ?_, .inl rfl⟩⟩
  · simpa [o] using fits
  · simp [o, e] at fits
  · simp [o, e] at fits; exact occupied fits
  · have := (stays f o).1 e
    rw [k] at this; cases this.1
  · exact (stays f o).2 ⟨k, Option.isSome_iff_ne_none.2 occupied⟩

/-- The occupant leaves. -/
theorem PortRecord.redecidable_leaving {r : PortRecord} {d : Disposition} (l : d.Leaves)
    (occupied : r.occ.occupant ≠ none) : Occupancy.Redecidable { r.occ with disposition := some d } where
  idle o := absurd o occupied
  settled _ e he := by cases he; exact l
  switching f _ _ _ := ⟨by simp, by rintro ⟨⟩; simp [Disposition.Leaves] at l⟩
  continuing f _ _ _ := ⟨d, rfl, .inr l⟩

theorem Occupancy.occupantStays_iff {o : Occupancy} :
    o.occupantStays = true ↔ o.occupant = none ∨ ∀ d, o.disposition = some d → ¬d.Leaves := by
  unfold Occupancy.occupantStays
  cases o.occupant with
  | none => simp
  | some x =>
    cases o.disposition with
    | none => simp
    | some d => cases d <;> simp [Disposition.Leaves]

/-- Who wins a re-decision, and over whom (R54). -/
theorem State.winner_cases (s : State) (p : Port) (gone : Bool) :
    (s.winner p gone = .occupant ∧ (s.port p).occ.occupantStays = true ∧
        s.urgency (s.port p).occ.occupant ≤ s.urgency (s.selection p)) ∨
      (∃ y, (s.port p).occ.standingIncoming gone = some y ∧ s.winner p gone = .incoming ∧
        s.urgency y ≤ s.urgency (s.selection p)) ∨
      s.winner p gone = .selected (s.selection p) := by
  unfold State.winner
  simp only
  split
  case h_2 =>
    split
    · next w => exact .inl ⟨rfl, w⟩
    · exact .inr (.inr rfl)
  case h_1 y standing =>
    split
    · next w => exact .inl ⟨rfl, w.1, w.2.2⟩
    · split
      · next w => exact .inr (.inl ⟨y, standing, rfl, w⟩)
      · exact .inr (.inr rfl)

theorem Occupancy.standingIncoming_eq_some {o : Occupancy} {gone : Bool} {y : Option Slot}
    (h : o.standingIncoming gone = some y) : gone = false ∧ ∃ f, o.offer = some f ∧ f.kind = .switchTask ∧ f.incoming = y := by
  unfold Occupancy.standingIncoming at h
  split at h
  · next f e =>
    split at h
    · next w => exact ⟨w.2, f, e, w.1, by simpa using h⟩
    · cases h
  · cases h

/-! ### What a re-decision does -/

/-- An occupant that loses the port has a disposition that is not STAY; one that leaves keeps its own (R55, R57). -/
theorem losePort_cases {s : State} {p : Port} (r : (s.port p).occ.Redecidable) :
    (losePort p s = s ∨ (losePort p s = s.setDisposition p .readyTail ∧ (s.port p).occ.occupant ≠ none ∧
        ∀ e : Disposition, e.Leaves → (s.port p).occ.disposition ≠ some e)) ∧
      ((((losePort p s).port p).occ.disposition.isSome ↔ (s.port p).occ.occupant.isSome)) ∧
      ((losePort p s).port p).occ.disposition ≠ some .stay := by
  have tail : ((s.setDisposition p .readyTail).port p).occ.disposition = some .readyTail := by
    rw [setDisposition_disposition, if_pos rfl]
  unfold losePort
  split
  · next x o d => exact ⟨.inr ⟨rfl, by simp [o], by simp [d]⟩, by simp [tail, o], by simp [tail]⟩
  · next x o d =>
    refine ⟨.inr ⟨rfl, by simp [o], fun e l k => ?_⟩, by simp [tail, o], by simp [tail]⟩
    rw [d] at k; cases k
    simp [Disposition.Leaves] at l
  · next not_none not_stay =>
    refine ⟨.inl rfl, ?_, fun e => ?_⟩
    · cases o : (s.port p).occ.occupant with
      | none => simp [r.idle o]
      | some x =>
        have : (s.port p).occ.disposition ≠ none := fun e => not_none x o e
        simpa [Option.isSome_iff_ne_none] using this
    · cases o : (s.port p).occ.occupant with
      | none => rw [r.idle o] at e; cases e
      | some x => exact not_stay x o e

theorem losePort_of_switch {s : State} {p : Port} (r : (s.port p).occ.Redecidable) {f : Offer}
    (o : (s.port p).occ.offer = some f) (k : f.kind = .switchTask) : losePort p s = s := by
  unfold losePort
  split
  · next x occupied d => exact absurd d (r.switching f o k (by simp [occupied])).1
  · next x occupied d => exact absurd d (r.switching f o k (by simp [occupied])).2
  · rfl

/-- The task that a re-decision may displace: the incoming of a SWITCH offer, unless it is gone (R58). -/
def State.oldIncoming (s : State) (p : Port) (gone : Bool) : Option Slot := if gone then none else s.displacedBy p

/-- A re-decision leaves the port as it stands, revises its offer to CONTINUE, or posts the selection (R55 to R57). -/
theorem redecide_cases {s : State} {p : Port} {gone : Bool} {place : Slot → TaskState} (h : s.Redeciding p gone place)
    (enabled : (s.port p).isEnabled = true) :
    (redecide p gone s = s ∧ (s.port p).Fits ∧ s.urgency (s.next p) ≤ s.urgency (s.selection p) ∧
        (gone = true → ∀ t, s.isIncoming p t = false)) ∨
      (redecide p gone s = displace (s.oldIncoming p gone) (continueOccupant p s) ∧
        (s.port p).occ.occupantStays = true ∧ s.urgency (s.port p).occ.occupant ≤ s.urgency (s.selection p)) ∨
      redecide p gone s = displace (s.oldIncoming p gone) (offerNext p (s.selection p) (losePort p s)) := by
  have r := h.redecidable
  have fits (disposition : (s.port p).occ.DispositionFits) : (s.port p).Fits := ⟨disposition, h.quiet, h.continues⟩
  have not_leaving (stays : (s.port p).occ.occupantStays = true) {d : Disposition} (e : (s.port p).occ.disposition = some d)
      (l : d.Leaves) : False := by
    rcases Occupancy.occupantStays_iff.1 stays with o | k
    · rw [r.idle o] at e; cases e
    · exact k d e l
  unfold redecide
  rw [if_neg (by simp [enabled])]
  cases offer : (s.port p).occ.offer with
  | none =>
    have old : s.oldIncoming p gone = none := by
      unfold State.oldIncoming State.displacedBy
      rw [offer]; exact ite_self _
    rcases s.winner_cases p gone with ⟨w, stays, le⟩ | ⟨y, standing, -⟩ | w
    · have settled : (s.port p).occ.disposition = none :=
        Option.eq_none_iff_forall_ne_some.2 fun d e => not_leaving stays e (r.settled offer d e)
      rw [w]
      refine .inl ⟨rfl, fits ⟨by simp [settled, offer], by simp [offer]⟩, ?_, fun _ t => by simp [State.isIncoming, offer]⟩
      simpa only [State.next, offer] using le
    · obtain ⟨-, f, e, -⟩ := Occupancy.standingIncoming_eq_some standing
      rw [offer] at e; cases e
    · rw [w, old]; exact .inr (.inr rfl)
  | some o =>
    cases kind : o.kind with
    | switchTask =>
      have old : s.oldIncoming p gone = if gone then none else o.incoming := by
        unfold State.oldIncoming State.displacedBy
        simp only [offer, kind, if_true]
      rcases s.winner_cases p gone with ⟨w, stays, le⟩ | ⟨y, standing, w, le⟩ | w
      · rw [w, old]
        simp only [kind]
        exact .inr (.inl ⟨trivial, stays, le⟩)
      · obtain ⟨not_gone, f, e, -, rfl⟩ := Occupancy.standingIncoming_eq_some standing
        obtain rfl := Option.some.inj (offer.symm.trans e)
        rw [w]
        simp only [kind]
        refine .inl ⟨trivial, fits ⟨?_, fun f e => ?_⟩, by simpa only [State.next, offer] using le, by simp [not_gone]⟩
        · by_cases occupied : (s.port p).occ.occupant = none
          · simp [r.idle occupied, occupied]
          · have := (r.switching o offer kind occupied).1
            simp [offer, Option.isSome_iff_ne_none, occupied, this]
        · obtain rfl := Option.some.inj (offer.symm.trans e)
          refine iff_of_false (fun stay => ?_) (by simp [kind])
          by_cases occupied : (s.port p).occ.occupant = none
          · rw [r.idle occupied] at stay; cases stay
          · exact (r.switching o offer kind occupied).2 stay
      · rw [w, old, losePort_of_switch r offer kind]
        simp only [kind]
        exact .inr (.inr trivial)
    | continueTask =>
      have old : s.oldIncoming p gone = none := by
        unfold State.oldIncoming State.displacedBy
        simp [offer, kind]
      have next : s.next p = (s.port p).occ.occupant := by
        simp only [State.next, offer, h.continues o offer kind]
      rcases s.winner_cases p gone with ⟨w, stays, le⟩ | ⟨y, standing, -⟩ | w
      · rw [w]
        simp only [kind]
        refine .inl ⟨trivial, fits ⟨?_, fun f e => ?_⟩, by rwa [next], fun _ t => by simp [State.isIncoming, offer, kind]⟩
        · by_cases occupied : (s.port p).occ.occupant = none
          · simp [r.idle occupied, occupied]
          · obtain ⟨d, e, -⟩ := r.continuing o offer kind occupied
            simp [offer, e, Option.isSome_iff_ne_none, occupied]
        · obtain rfl := Option.some.inj (offer.symm.trans e)
          by_cases occupied : (s.port p).occ.occupant = none
          · simp [r.idle occupied, occupied]
          · obtain ⟨d, e, rfl | l⟩ := r.continuing o offer kind occupied
            · simp [kind, e, Option.isSome_iff_ne_none, occupied]
            · exact (not_leaving stays e l).elim
      · obtain ⟨-, f, e, k, -⟩ := Occupancy.standingIncoming_eq_some standing
        obtain rfl := Option.some.inj (offer.symm.trans e)
        rw [kind] at k; cases k
      · rw [w, old]
        simp only [kind]
        exact .inr (.inr rfl)

/-! ### The offer that a re-decision writes -/

/-- The state with a port's offer written afresh: its incoming is nowhere, every port fits, and the port's next is at least
as urgent as the selection was. -/
structure Reoffers (p : Port) (s w : State) (place : Slot → TaskState) : Prop where
  arranged : w.Arranged place
  vacated : ∀ t, s.isIncoming p t = true → place t = .held
  kept : ∀ t, s.isIncoming p t = false → place t = w.states t
  fits : ∀ q, (w.port q).Fits
  work : Dispatches Nobody s w
  ready : ∀ t, w.states t = .ready → s.states t = .ready
  next : ∀ q, p ≠ q → w.next q = s.next q
  urgent : w.urgency (w.next p) ≤ s.urgency (s.selection p)

/-- The occupant keeps the port under a CONTINUE offer (R56). -/
theorem continueOccupant_reoffers {s : State} {p : Port} {gone : Bool} {place : Slot → TaskState}
    (h : s.Redeciding p gone place) (enabled : (s.port p).isEnabled = true)
    (stays : (s.port p).occ.occupantStays = true)
    (urgent : s.urgency (s.port p).occ.occupant ≤ s.urgency (s.selection p)) :
    Reoffers p s (continueOccupant p s) (s.vacated p place) := by
  have kept (w : State) (states : w.states = s.states) (t : Slot) (i : s.isIncoming p t = false) :
      s.vacated p place t = w.states t := by
    rw [states]
    rcases h.states t with e | ⟨-, k⟩
    · simp [State.vacated, i, e]
    · rw [i] at k; cases k
  have vacated (t : Slot) (i : s.isIncoming p t = true) : s.vacated p place t = .held := if_pos i
  unfold continueOccupant
  cases occupant : (s.port p).occ.occupant with
  | none =>
    have none_given := h.redecidable.idle occupant
    refine ⟨h.arranged.writeOffer_none p (.inl rfl), vacated, kept _ (writeOffer_states ..), fun q => ?_,
      writeOffer_dispatches enabled (by simp), fun t => by rw [writeOffer_states]; exact id, fun q ne => by rw [writeOffer_next, if_neg ne], ?_⟩
    · by_cases e : p = q
      · subst e
        refine ⟨⟨by simp [none_given, occupant], fun f _ => by simp [none_given, occupant]⟩, fun d => ?_, fun o ho _ => ?_⟩
        · rw [writeOffer_lifecycle] at d
          simp [PortRecord.isEnabled, d] at enabled
        · rw [writeOffer_offer, if_pos rfl] at ho
          cases ho
          rw [writeOffer_occupant, occupant]; rfl
      · exact writeOffer_port_ne e (h.others q e)
    · rw [writeOffer_next, if_pos rfl, (writeOffer_frame _ _ _ _ enabled).urgency, ← occupant]
      exact urgent
  | some x =>
    have enabled' : ((s.setDisposition p .stay).port p).isEnabled = true := by
      simpa [PortRecord.isEnabled] using enabled
    have old (e : Disposition) (l : e.Leaves) : (s.port p).occ.disposition ≠ some e := by
      rcases Occupancy.occupantStays_iff.1 stays with o | k
      · rw [occupant] at o; cases o
      · exact fun given => k e given l
    have a := (h.arranged.setDisposition p .stay).writeOffer_none p (k := .continueTask) (y := some x) (.inl rfl)
    have same : (s.setDisposition p .stay).vacated p place = s.vacated p place := by
      funext t; simp only [State.vacated, setDisposition_isIncoming]
    have stay : (((writeOffer p .continueTask (some x) (s.setDisposition p .stay)).port p).occ.disposition) = some .stay := by
      rw [writeOffer_disposition, setDisposition_disposition, if_pos rfl]
    refine ⟨same ▸ a, vacated, kept _ (by rw [writeOffer_states, setDisposition_states]), fun q => ?_,
      (setDisposition_dispatches (.inr enabled) (by simp [Disposition.Leaves]) old).trans
        (writeOffer_dispatches enabled' (by simp)),
      fun t => by rw [writeOffer_states, setDisposition_states]; exact id, fun q ne => by rw [writeOffer_next, if_neg ne, setDisposition_next], ?_⟩
    · by_cases e : p = q
      · subst e
        refine ⟨⟨by simp [stay, occupant, writeOffer_offer], fun f hf => ?_⟩, fun d => ?_, fun o ho _ => ?_⟩
        · rw [writeOffer_offer, if_pos rfl] at hf
          cases hf
          simp [stay, occupant, State.offerOf]
        · rw [writeOffer_lifecycle, setDisposition_lifecycle] at d
          simp [PortRecord.isEnabled, d] at enabled
        · rw [writeOffer_offer, if_pos rfl] at ho
          cases ho
          rw [writeOffer_occupant, setDisposition_occupant, occupant]; rfl
      · exact writeOffer_port_ne e (setDisposition_fits_ne e (h.others q e))
    · rw [writeOffer_next, if_pos rfl, ((setDisposition_frame s p .stay (.inr enabled)).trans
        (writeOffer_frame _ _ _ _ enabled')).urgency, ← occupant]
      exact urgent

theorem offerNext_next (p : Port) (y : Option Slot) (s : State) (q : Port) :
    (offerNext p y s).next q = if p = q then y else s.next q := by
  cases y
  · exact writeOffer_next _ _ _ _ _
  · exact offerTask_next _ _ _ _

/-- The selection is offered (R55, R57). -/
theorem offerNext_reoffers {s : State} {p : Port} {gone : Bool} {place : Slot → TaskState}
    (h : s.Redeciding p gone place) (enabled : (s.port p).isEnabled = true) :
    ∃ place', Reoffers p s (offerNext p (s.selection p) (losePort p s)) place' := by
  obtain ⟨cases, some_iff, not_stay⟩ := losePort_cases h.redecidable
  have work : Dispatches Nobody s (losePort p s) := by
    rcases cases with e | ⟨e, occupied, old⟩
    · rw [e]; exact .refl _ s
    · rw [e]; exact setDisposition_dispatches (.inl occupied) (by simp [Disposition.Leaves]) old
  have arranged : (losePort p s).Arranged place := by
    rcases cases with e | ⟨e, -⟩
    · rw [e]; exact h.arranged
    · rw [e]; exact h.arranged.setDisposition p _
  have others (q : Port) (ne : p ≠ q) : ((losePort p s).port q).Fits := by
    rcases cases with e | ⟨e, -⟩
    · rw [e]; exact h.others q ne
    · rw [e]; exact setDisposition_fits_ne ne (h.others q ne)
  have same : (losePort p s).states = s.states ∧ (∀ q, (losePort p s).next q = s.next q) ∧
      (∀ q t, (losePort p s).isIncoming q t = s.isIncoming q t) ∧
      ((losePort p s).port p).occ.occupant = (s.port p).occ.occupant := by
    rcases cases with e | ⟨e, -⟩
    · rw [e]; exact ⟨rfl, fun _ => rfl, fun _ _ => rfl, rfl⟩
    · rw [e]
      exact ⟨setDisposition_states .., setDisposition_next s p _, setDisposition_isIncoming s p _,
        setDisposition_occupant s p _ p⟩
  obtain ⟨states, next, incoming, occupant⟩ := same
  have enabled' : ((losePort p s).port p).isEnabled = true := by rw [work.isEnabled, enabled]
  have some_iff' : ((losePort p s).port p).occ.disposition.isSome ↔ ((losePort p s).port p).occ.occupant.isSome := by
    rw [occupant]; exact some_iff
  have vacated_eq : (losePort p s).vacated p place = s.vacated p place := by
    funext t; simp only [State.vacated, incoming]
  have next' (q : Port) (ne : p ≠ q) : (offerNext p (s.selection p) (losePort p s)).next q = s.next q := by
    rw [offerNext_next, if_neg ne, next]
  have kept {t : Slot} (i : s.isIncoming p t = false) : place t = s.states t :=
    (h.states t).resolve_right (by simp [i])
  cases selection : s.selection p with
  | none =>
    have work' := work.trans (writeOffer_dispatches (k := .switchTask) (y := none) enabled' (by simp))
    refine ⟨s.vacated p place, vacated_eq ▸ arranged.writeOffer_none p (.inr rfl), fun t i => if_pos i,
      fun t i => ?_, fun q => ?_, work', fun t => by rw [offerNext, writeOffer_states, states]; exact id,
      selection ▸ next', ?_⟩
    · rw [offerNext, writeOffer_states, states, State.vacated, if_neg (by simp [i]), kept i]
    · by_cases e : p = q
      · subst e; exact writeOffer_switch_fits enabled' some_iff' not_stay
      · exact writeOffer_port_ne e (others q e)
    · rw [offerNext_next, if_pos rfl, selection]
      exact (work'.frame.urgency _).le
  | some t =>
    obtain ⟨ready, eligible⟩ := h.arranged.selection_mem selection
    have ready' : s.states t = .ready := by
      rcases h.states t with e | ⟨-, i⟩
      · rw [← e, ready]
      · have := (h.arranged.incomings t).2 ⟨p, i⟩
        rw [ready] at this; cases this
    have permitted := (State.eligible_spec.1 eligible).1
    have work' := work.trans (offerTask_dispatches (t := t) enabled' (by rw [states, ready']) (by rwa [work.frame.affinity]))
    refine ⟨moveTo (s.vacated p place) t .selected, vacated_eq ▸ arranged.offerTask p ready, fun u i => ?_, fun u i => ?_,
      offerTask_fits enabled' some_iff' not_stay others, work', fun u r => ?_, selection ▸ next', ?_⟩
    · have := (h.arranged.incomings u).2 ⟨p, i⟩
      rw [moveTo_ne _ _ (by rintro rfl; rw [ready] at this; cases this)]
      exact if_pos i
    · rw [offerNext, offerTask_states, states]
      simp only [moveTo, State.vacated, i, kept i]
      simp
    · rw [offerNext, offerTask_states, states] at r
      by_cases e : u = t
      · rw [e, ready']
      · rwa [moveTo_ne _ _ e] at r
    · rw [offerNext_next, if_pos rfl, selection]
      exact (work'.frame.urgency _).le

/-! ### After a re-decision -/

/-- Once the displaced task, if there is one, is in its queue and placed, the laws hold again (R58). -/
theorem Reoffers.displace {p : Port} {s w : State} {place : Slot → TaskState} (h : Reoffers p s w place)
    (selected : ∀ t, s.isIncoming p t = true → s.states t = .selected) :
    (Machine.displace (s.displacedBy p) w).DispatcherLaw ∧ Dispatches Nobody s (Machine.displace (s.displacedBy p) w) ∧
      ((∀ q, w.UrgentOn q Nobody) → (Machine.displace (s.displacedBy p) w).UrgencyLaw) := by
  cases d : s.displacedBy p with
  | none =>
    have places : place = w.states := funext fun t => h.kept t (State.displacedBy_eq_none.1 d t)
    exact ⟨State.dispatcherLaw_iff.2 ⟨places ▸ h.arranged, h.fits⟩, h.work, State.urgencyLaw_iff.2⟩
  | some y =>
    have incoming := State.displacedBy_eq_some.1 d
    have but : w.DispatcherBut y := by
      refine ⟨?_, h.fits⟩
      have places : place = moveTo w.states y .held := by
        funext t
        by_cases e : t = y
        · rw [e, moveTo_self, h.vacated y incoming]
        · rw [moveTo_ne _ _ e]
          refine h.kept t (Bool.not_eq_true _ ▸ fun i => e ?_)
          exact Option.some.inj ((State.next_of_isIncoming i).symm.trans (State.next_of_isIncoming incoming))
      exact places ▸ h.arranged
    have inside : w.states y = .ready ∨ w.states y = .selected := by
      rcases h.work.moved y with e | ⟨-, r⟩
      · exact .inr (e.trans (selected y incoming))
      · exact r
    exact ⟨readyHead_dispatcher but, h.work.trans ((readyHead_dispatches but).absorb inside),
      fun u => readyHead_urgent but fun q => (u q).mono fun _ => False.elim⟩

/-- The urgency of every port once a port's offer has been written afresh. -/
theorem Reoffers.urgentOn {p : Port} {gone : Bool} {s w : State} {place place' : Slot → TaskState}
    (h : Reoffers p s w place') (b : s.Redeciding p gone place) (others : ∀ q, p ≠ q → s.UrgentOn q Nobody)
    (not_ready : ∀ t, s.isIncoming p t = true → s.states t ≠ .ready) (q : Port) : w.UrgentOn q Nobody := by
  by_cases e : p = q
  · subst e
    intro t r _ el
    have ready := h.ready t r
    have at_place : place t = .ready := by
      rcases b.states t with k | ⟨-, i⟩
      · rw [k, ready]
      · exact absurd ready (not_ready t i)
    rw [h.work.frame.eligible] at el
    rw [h.work.frame.urgency (some t)]
    exact h.urgent.trans (b.arranged.selection_urgent at_place el)
  · exact (others q e).of_frame h.work.frame (by rw [h.work.frame.urgency, h.next q e]) fun t r _ => h.ready t r

/-- On a DISABLED port a re-decision changes nothing, and there is nothing to re-decide. -/
theorem redecide_of_disabled {s : State} {p : Port} {gone : Bool} (d : (s.port p).isEnabled = false) :
    redecide p gone s = s := if_pos d

theorem State.Redeciding.fits_of_disabled {s : State} {p : Port} {gone : Bool} {place : Slot → TaskState}
    (h : s.Redeciding p gone place) (d : (s.port p).isEnabled = false) :
    (s.port p).Fits ∧ ∀ t, s.isIncoming p t = false := by
  have life : (s.port p).lifecycle = .disabled := by
    cases e : (s.port p).lifecycle with
    | disabled => rfl
    | enabled => simp [PortRecord.isEnabled, e] at d
  obtain ⟨occupant, offer, disposition⟩ := h.quiet life
  exact ⟨⟨⟨by simp [occupant, offer, disposition], by simp [offer]⟩, h.quiet, h.continues⟩,
    fun t => by simp [State.isIncoming, offer]⟩

/-- A re-decision of a port with its incoming standing: the laws of the Dispatcher hold after it. -/
theorem redecide_dispatcher {s : State} {p : Port} {place : Slot → TaskState} (h : s.Redeciding p false place) :
    (redecide p false s).DispatcherLaw ∧ Dispatches Nobody s (redecide p false s) ∧
      ((∀ q, p ≠ q → s.UrgentOn q Nobody) → (redecide p false s).UrgencyLaw) := by
  have states : place = s.states := funext fun t => (h.states t).resolve_right (by simp)
  have arranged : s.Arranged s.states := states ▸ h.arranged
  have selected (t : Slot) (i : s.isIncoming p t = true) : s.states t = .selected := (arranged.incomings t).2 ⟨p, i⟩
  have fits (f : (s.port p).Fits) (q : Port) : (s.port q).Fits := by
    by_cases e : p = q
    · exact e ▸ f
    · exact h.others q e
  by_cases enabled : (s.port p).isEnabled = true
  · have old : s.oldIncoming p false = s.displacedBy p := rfl
    have reoffered {w : State} {place' : Slot → TaskState} (r : Reoffers p s w place') :
        (displace (s.displacedBy p) w).DispatcherLaw ∧ Dispatches Nobody s (displace (s.displacedBy p) w) ∧
          ((∀ q, p ≠ q → s.UrgentOn q Nobody) → (displace (s.displacedBy p) w).UrgencyLaw) := by
      obtain ⟨law, work, urgent⟩ := r.displace selected
      exact ⟨law, work, fun others => urgent (r.urgentOn h others fun t i => by rw [selected t i]; simp)⟩
    rcases redecide_cases h enabled with ⟨e, f, le, -⟩ | ⟨e, stays, le⟩ | e
    · rw [e]
      refine ⟨State.dispatcherLaw_iff.2 ⟨arranged, fits f⟩, .refl _ s, fun others => State.urgencyLaw_iff.2 fun q => ?_⟩
      by_cases same : p = q
      · subst same
        exact fun t r _ el => le.trans (arranged.selection_urgent r el)
      · exact others q same
    · rw [e, old]
      exact reoffered (continueOccupant_reoffers h enabled stays le)
    · rw [e, old]
      obtain ⟨place', r⟩ := offerNext_reoffers h enabled
      exact reoffered r
  · have disabled : (s.port p).isEnabled = false := Bool.not_eq_true _ ▸ enabled
    obtain ⟨f, -⟩ := h.fits_of_disabled disabled
    rw [redecide_of_disabled disabled]
    refine ⟨State.dispatcherLaw_iff.2 ⟨arranged, fits f⟩, .refl _ s, fun others => State.urgencyLaw_iff.2 fun q => ?_⟩
    by_cases same : p = q
    · subst same
      intro t _ _ el
      rw [(State.eligible_spec.1 el).2] at disabled; cases disabled
    · exact others q same

/-- A re-decision of a port whose incoming is gone: the laws of the Dispatcher hold after it but for that task, which it
has nowhere. -/
theorem redecide_gone {s : State} {p : Port} {t : Slot} {place : Slot → TaskState} (h : s.Redeciding p true place)
    (incoming : s.isIncoming p t = true) (not_ready : s.states t ≠ .ready) :
    (redecide p true s).DispatcherBut t ∧ Dispatches Nobody s (redecide p true s) ∧
      ((∀ q, p ≠ q → s.UrgentOn q Nobody) → ∀ q, (redecide p true s).UrgentOn q Nobody) := by
  have only {u : Slot} (i : s.isIncoming p u = true) : u = t :=
    Option.some.inj ((State.next_of_isIncoming i).symm.trans (State.next_of_isIncoming incoming))
  have enabled : (s.port p).isEnabled = true := by
    by_contra disabled
    have := (h.fits_of_disabled (Bool.not_eq_true _ ▸ disabled)).2 t
    rw [incoming] at this; cases this
  have reoffered {w : State} {place' : Slot → TaskState} (r : Reoffers p s w place') :
      w.DispatcherBut t ∧ Dispatches Nobody s w ∧ ((∀ q, p ≠ q → s.UrgentOn q Nobody) → ∀ q, w.UrgentOn q Nobody) := by
    have places : place' = moveTo w.states t .held := by
      funext u
      by_cases e : u = t
      · rw [e, moveTo_self, r.vacated t incoming]
      · rw [moveTo_ne _ _ e]
        exact r.kept u (Bool.not_eq_true _ ▸ fun i => e (only i))
    exact ⟨⟨places ▸ r.arranged, r.fits⟩, r.work, fun others => r.urgentOn h others fun u i => by rwa [only i]⟩
  have old : s.oldIncoming p true = none := rfl
  rcases redecide_cases h enabled with ⟨-, -, -, none_incoming⟩ | ⟨e, stays, le⟩ | e
  · rw [none_incoming rfl t] at incoming; cases incoming
  · rw [e, old]
    exact reoffered (continueOccupant_reoffers h enabled stays le)
  · rw [e, old]
    obtain ⟨place', r⟩ := offerNext_reoffers h enabled
    exact reoffered r

end Sys2Proof.Machine

/-! ## The books of the objects (R7, R73, R80, R115, R130, R144)

The laws of the waiters' lists, the timer list, the exchanges, the lines and the pool, and what keeps them. A task that has
been taken off its list while its wait is still to end is away. -/

namespace Sys2Proof.Machine

/-! ### The list a task waits in -/

/-- The lists a task can wait in. -/
inductive WaitList where
  | receivers (x : Fin 16)
  | senders (x : Fin 16)
  | acquirers (x : Fin 16)
  | line (l : Line)
  | pages

/-- The receivers that wait at an exchange. -/
def ExchangeState.receivers : ExchangeState → List Slot
  | .message _ b => b.receivers
  | .closed | .count _ _ => []

/-- The acquirers that wait at an exchange. -/
def ExchangeState.acquirers : ExchangeState → List Slot
  | .count _ c => c.acquirers
  | .closed | .message _ _ => []

/-- The entries of a list of waiters. -/
def State.entries (s : State) : WaitList → List Slot
  | .receivers x => (s.exchange x).state.receivers
  | .senders x => (s.exchange x).state.senders
  | .acquirers x => (s.exchange x).state.acquirers
  | .line l => (s.line l).waiters
  | .pages => s.pool.waitQueue

/-- The list that a wait of a kind has its task in; a DELAY has none (R122). -/
def WaitKind.list : WaitKind → Option WaitList
  | .delay => none
  | .recv id _ _ => (exchangeIndex id).map .receivers
  | .send id _ => (exchangeIndex id).map .senders
  | .acquire id => (exchangeIndex id).map .acquirers
  | .event l => some (.line l)
  | .pages _ => some .pages

/-- A wait on an exchange names by its current id an OPEN exchange of its kind, and a page request asks 1 to 32 pages. -/
def State.Valid (s : State) : WaitKind → Prop
  | .recv id _ _ | .send id _ => ∃ x o b, id = s.exchangeId x ∧ (s.exchange x).state = .message o b
  | .acquire id => ∃ x o c, id = s.exchangeId x ∧ (s.exchange x).state = .count o c
  | .pages n => 1 ≤ n ∧ n ≤ 32
  | .delay | .event _ => True

/-- The task has a wait record of a kind that has it in the list. -/
def State.waitsIn (s : State) (t : Slot) (l : WaitList) : Prop := ∃ w, (s.task t).wait = some w ∧ w.kind.list = some l

/-- Every list has the tasks that wait in it, each once, but for those that are away; and every wait is valid. -/
structure State.ListsFit (s : State) (away : Slot → Prop) : Prop where
  nodup : ∀ l, (s.entries l).Nodup
  mem : ∀ l t, t ∈ s.entries l ↔ ¬away t ∧ s.waitsIn t l
  valid : ∀ t w, (s.task t).wait = some w → s.Valid w.kind

theorem WaitKind.list_eq_receivers {k : WaitKind} {x : Fin 16} :
    k.list = some (.receivers x) ↔ ∃ id low high, k = .recv id low high ∧ exchangeIndex id = some x := by
  cases k <;> simp [WaitKind.list]

theorem WaitKind.list_eq_senders {k : WaitKind} {x : Fin 16} :
    k.list = some (.senders x) ↔ ∃ id m, k = .send id m ∧ exchangeIndex id = some x := by
  cases k <;> simp [WaitKind.list]

theorem WaitKind.list_eq_acquirers {k : WaitKind} {x : Fin 16} :
    k.list = some (.acquirers x) ↔ ∃ id, k = .acquire id ∧ exchangeIndex id = some x := by
  cases k <;> simp [WaitKind.list]

theorem WaitKind.list_eq_line {k : WaitKind} {l : Line} : k.list = some (.line l) ↔ k = .event l := by
  cases k <;> simp [WaitKind.list]

theorem WaitKind.list_eq_pages {k : WaitKind} : k.list = some .pages ↔ ∃ n, k = .pages n := by
  cases k <;> simp [WaitKind.list]

/-- A valid wait in the receivers of an exchange names it by its current id, and the exchange is a mailbox. -/
theorem State.Valid.receivers {s : State} {k : WaitKind} (v : s.Valid k) {x : Fin 16} (h : k.list = some (.receivers x)) :
    (∃ low high, k = .recv (s.exchangeId x) low high) ∧ ∃ o b, (s.exchange x).state = .message o b := by
  obtain ⟨id, low, high, rfl, i⟩ := WaitKind.list_eq_receivers.1 h
  obtain ⟨y, o, b, rfl, e⟩ := v
  obtain rfl := Option.some.inj ((exchangeIndex_exchangeId s y).symm.trans i)
  exact ⟨⟨low, high, rfl⟩, o, b, e⟩

theorem State.Valid.senders {s : State} {k : WaitKind} (v : s.Valid k) {x : Fin 16} (h : k.list = some (.senders x)) :
    (∃ m, k = .send (s.exchangeId x) m) ∧ ∃ o b, (s.exchange x).state = .message o b := by
  obtain ⟨id, m, rfl, i⟩ := WaitKind.list_eq_senders.1 h
  obtain ⟨y, o, b, rfl, e⟩ := v
  obtain rfl := Option.some.inj ((exchangeIndex_exchangeId s y).symm.trans i)
  exact ⟨⟨m, rfl⟩, o, b, e⟩

theorem State.Valid.acquirers {s : State} {k : WaitKind} (v : s.Valid k) {x : Fin 16} (h : k.list = some (.acquirers x)) :
    k = .acquire (s.exchangeId x) ∧ ∃ o c, (s.exchange x).state = .count o c := by
  obtain ⟨id, rfl, i⟩ := WaitKind.list_eq_acquirers.1 h
  obtain ⟨y, o, c, rfl, e⟩ := v
  obtain rfl := Option.some.inj ((exchangeIndex_exchangeId s y).symm.trans i)
  exact ⟨rfl, o, c, e⟩

theorem entries_receivers (s : State) (x : Fin 16) :
    (∃ o b, (s.exchange x).state = .message o b ∧ s.entries (.receivers x) = b.receivers) ∨
      ((∀ o b, (s.exchange x).state ≠ .message o b) ∧ s.entries (.receivers x) = []) := by
  cases e : (s.exchange x).state <;> simp [State.entries, e, ExchangeState.receivers]

theorem entries_senders (s : State) (x : Fin 16) :
    (∃ o b, (s.exchange x).state = .message o b ∧ s.entries (.senders x) = b.senders) ∨
      ((∀ o b, (s.exchange x).state ≠ .message o b) ∧ s.entries (.senders x) = []) := by
  cases e : (s.exchange x).state <;> simp [State.entries, e, ExchangeState.senders]

theorem entries_acquirers (s : State) (x : Fin 16) :
    (∃ o c, (s.exchange x).state = .count o c ∧ s.entries (.acquirers x) = c.acquirers) ∨
      ((∀ o c, (s.exchange x).state ≠ .count o c) ∧ s.entries (.acquirers x) = []) := by
  cases e : (s.exchange x).state <;> simp [State.entries, e, ExchangeState.acquirers]

section Lists
variable {s : State}

/-- The waits of a list, in the words of the law of the lists. -/
theorem waitsIn_receivers (valid : ∀ t w, (s.task t).wait = some w → s.Valid w.kind) (t : Slot) (x : Fin 16) :
    s.waitsIn t (.receivers x) ↔ s.waitsFor t fun k => ∃ low high, k = .recv (s.exchangeId x) low high := by
  refine exists_congr fun w => and_congr_right fun e => ⟨fun h => ((valid t w e).receivers h).1, ?_⟩
  rintro ⟨low, high, h⟩
  rw [h, WaitKind.list, exchangeIndex_exchangeId]; rfl

theorem waitsIn_senders (valid : ∀ t w, (s.task t).wait = some w → s.Valid w.kind) (t : Slot) (x : Fin 16) :
    s.waitsIn t (.senders x) ↔ s.waitsFor t fun k => ∃ m, k = .send (s.exchangeId x) m := by
  refine exists_congr fun w => and_congr_right fun e => ⟨fun h => ((valid t w e).senders h).1, ?_⟩
  rintro ⟨m, h⟩
  rw [h, WaitKind.list, exchangeIndex_exchangeId]; rfl

theorem waitsIn_acquirers (valid : ∀ t w, (s.task t).wait = some w → s.Valid w.kind) (t : Slot) (x : Fin 16) :
    s.waitsIn t (.acquirers x) ↔ s.waitsFor t fun k => k = .acquire (s.exchangeId x) := by
  refine exists_congr fun w => and_congr_right fun e => ⟨fun h => ((valid t w e).acquirers h).1, fun h => ?_⟩
  rw [h, WaitKind.list, exchangeIndex_exchangeId]; rfl

theorem waitsIn_line (t : Slot) (l : Line) : s.waitsIn t (.line l) ↔ s.waitsFor t fun k => k = .event l :=
  exists_congr fun _ => and_congr_right fun _ => WaitKind.list_eq_line

theorem waitsIn_pages (t : Slot) : s.waitsIn t .pages ↔ s.waitsFor t fun k => ∃ n, k = .pages n :=
  exists_congr fun _ => and_congr_right fun _ => WaitKind.list_eq_pages

/-- The three clauses of the law of the lists on what a wait may name say that every wait is valid. -/
theorem State.ListLaw.valid (h : s.ListLaw) (t : Slot) (w : WaitRecord) (e : (s.task t).wait = some w) :
    s.Valid w.kind := by
  cases k : w.kind with
  | delay => exact trivial
  | recv id low high => exact h.openMessage t id ⟨w, e, .inl ⟨low, high, k⟩⟩
  | send id m => exact h.openMessage t id ⟨w, e, .inr ⟨m, k⟩⟩
  | acquire id => exact h.openCount t id ⟨w, e, k⟩
  | event l => exact trivial
  | pages n => exact h.asked t n ⟨w, e, k⟩

theorem State.listLaw_iff : s.ListLaw ↔ s.ListsFit Nobody := by
  constructor
  · intro h
    have valid := h.valid
    refine ⟨fun l => ?_, fun l t => ?_, valid⟩
    · cases l with
      | receivers x =>
        obtain ⟨o, b, e, same⟩ | ⟨-, same⟩ := entries_receivers s x
        · exact same ▸ (h.receivers x o b e).1
        · exact same ▸ List.nodup_nil
      | senders x =>
        obtain ⟨o, b, e, same⟩ | ⟨-, same⟩ := entries_senders s x
        · exact same ▸ (h.senders x o b e).1
        · exact same ▸ List.nodup_nil
      | acquirers x =>
        obtain ⟨o, c, e, same⟩ | ⟨-, same⟩ := entries_acquirers s x
        · exact same ▸ (h.acquirers x o c e).1
        · exact same ▸ List.nodup_nil
      | line l => exact (h.lines l).1
      | pages => exact h.pages.1
    · refine Iff.trans ?_ (and_iff_right id).symm
      cases l with
      | receivers x =>
        obtain ⟨o, b, e, same⟩ | ⟨none_open, same⟩ := entries_receivers s x
        · exact same ▸ ((h.receivers x o b e).2 t).trans (waitsIn_receivers valid t x).symm
        · refine iff_of_false (same ▸ List.not_mem_nil) ?_
          rintro ⟨w, hw, hl⟩
          obtain ⟨-, o, b, k⟩ := (valid t w hw).receivers hl
          exact none_open o b k
      | senders x =>
        obtain ⟨o, b, e, same⟩ | ⟨none_open, same⟩ := entries_senders s x
        · exact same ▸ ((h.senders x o b e).2 t).trans (waitsIn_senders valid t x).symm
        · refine iff_of_false (same ▸ List.not_mem_nil) ?_
          rintro ⟨w, hw, hl⟩
          obtain ⟨-, o, b, k⟩ := (valid t w hw).senders hl
          exact none_open o b k
      | acquirers x =>
        obtain ⟨o, c, e, same⟩ | ⟨none_open, same⟩ := entries_acquirers s x
        · exact same ▸ ((h.acquirers x o c e).2 t).trans (waitsIn_acquirers valid t x).symm
        · refine iff_of_false (same ▸ List.not_mem_nil) ?_
          rintro ⟨w, hw, hl⟩
          obtain ⟨-, o, c, k⟩ := (valid t w hw).acquirers hl
          exact none_open o c k
      | line l => exact ((h.lines l).2 t).trans (waitsIn_line t l).symm
      | pages => exact (h.pages.2 t).trans (waitsIn_pages t).symm
  · intro h
    have mem (l : WaitList) (t : Slot) : t ∈ s.entries l ↔ s.waitsIn t l := (h.mem l t).trans (and_iff_right id)
    refine
      { receivers := fun x o b e => ?_, senders := fun x o b e => ?_, acquirers := fun x o c e => ?_
        lines := fun l => ⟨h.nodup (.line l), fun t => (mem (.line l) t).trans (waitsIn_line t l)⟩
        pages := ⟨h.nodup .pages, fun t => (mem .pages t).trans (waitsIn_pages t)⟩
        openMessage := ?_, openCount := ?_, asked := ?_ }
    · have same : s.entries (.receivers x) = b.receivers := by simp only [State.entries, e, ExchangeState.receivers]
      exact ⟨same ▸ h.nodup _, fun t => same ▸ (mem _ t).trans (waitsIn_receivers h.valid t x)⟩
    · have same : s.entries (.senders x) = b.senders := by simp only [State.entries, e, ExchangeState.senders]
      exact ⟨same ▸ h.nodup _, fun t => same ▸ (mem _ t).trans (waitsIn_senders h.valid t x)⟩
    · have same : s.entries (.acquirers x) = c.acquirers := by simp only [State.entries, e, ExchangeState.acquirers]
      exact ⟨same ▸ h.nodup _, fun t => same ▸ (mem _ t).trans (waitsIn_acquirers h.valid t x)⟩
    · rintro t id ⟨w, e, ⟨low, high, k⟩ | ⟨m, k⟩⟩
      all_goals
        have v := h.valid t w e
        rw [k] at v
        exact v
    · rintro t id ⟨w, e, k⟩
      have v := h.valid t w e
      rw [k] at v
      exact v
    · rintro t n ⟨w, e, k⟩
      have v := h.valid t w e
      rw [k] at v
      exact v

end Lists

end Sys2Proof.Machine

/-! ## All the laws together: what is kept at every point of an operation, and what only between two of them -/

namespace Sys2Proof.Machine

/-! ### The books -/

/-- The laws of the objects that hold at every point of an operation. -/
structure State.Books (s : State) (away : Slot → Prop) : Prop where
  lists : s.ListsFit away
  filters : s.FilterLaw
  cells : s.CellLaw
  lines : ∀ l, (s.line l).Lawful
  ticks : s.time.Bounded
  timers : s.TimerLaw
  pool : s.PoolLaw

/-- The laws of the objects that an operation restores at its end: refill fills a queue again (R81), a tick takes the due
entries (R116), serving goes on to a head that cannot be granted (R149). -/
structure State.Rested (s : State) : Prop where
  exchanges : ∀ x, (s.exchange x).state.Lawful
  timerOrder : s.TimerOrder
  headBlocked : s.HeadBlocked

/-- The objects and the wait records are the same, and no task has become FREE. -/
structure BooksKept (s s' : State) : Prop where
  exchanges : s'.exchanges = s.exchanges
  freeCells : s'.freeCells = s.freeCells
  time : s'.time = s.time
  lines : s'.lines = s.lines
  pool : s'.pool = s.pool
  wait : ∀ t, (s'.task t).wait = (s.task t).wait
  freed : ∀ t, s'.states t = .free → s.states t = .free

theorem BooksKept.refl (s : State) : BooksKept s s := ⟨rfl, rfl, rfl, rfl, rfl, fun _ => rfl, fun _ => id⟩

theorem BooksKept.trans {a b c : State} (h : BooksKept a b) (k : BooksKept b c) : BooksKept a c :=
  ⟨k.exchanges.trans h.exchanges, k.freeCells.trans h.freeCells, k.time.trans h.time, k.lines.trans h.lines,
    k.pool.trans h.pool, fun t => (k.wait t).trans (h.wait t), fun t => h.freed t ∘ k.freed t⟩

theorem BooksKept.exchange {s s' : State} (h : BooksKept s s') (x : Fin 16) : s'.exchange x = s.exchange x := by
  simp only [State.exchange, h.exchanges]

theorem BooksKept.line {s s' : State} (h : BooksKept s s') (l : Line) : s'.line l = s.line l := by
  simp only [State.line, h.lines]

/-- What a wait may name depends on the exchanges alone. -/
theorem State.Valid.congr {s s' : State} (exchange : ∀ x, s'.exchange x = s.exchange x) {k : WaitKind} (v : s.Valid k) :
    s'.Valid k := by
  have same : s'.Valid k ↔ s.Valid k := by cases k <;> simp only [State.Valid, State.exchangeId, exchange]
  exact same.2 v

theorem BooksKept.askedPages {s s' : State} (h : BooksKept s s') (t : Slot) : s'.askedPages t = s.askedPages t := by
  simp only [State.askedPages, h.wait]

/-- The books without the pool's runs: they read the objects and the wait records. -/
theorem State.Books.keep {s s' : State} {away : Slot → Prop} (h : s.Books away) (exchange : ∀ x, s'.exchange x = s.exchange x)
    (freeCells : s'.freeCells = s.freeCells) (time : s'.time = s.time) (line : ∀ l, s'.line l = s.line l)
    (queue : s'.pool.waitQueue = s.pool.waitQueue) (wait : ∀ t, (s'.task t).wait = (s.task t).wait) (pool : s'.PoolLaw) :
    s'.Books away where
  lists := by
    have entries (l : WaitList) : s'.entries l = s.entries l := by cases l <;> simp only [State.entries, exchange, line, queue]
    refine ⟨fun l => by rw [entries]; exact h.lists.nodup l, fun l t => ?_, fun t w e => ?_⟩
    · simp only [entries, State.waitsIn, wait]
      exact h.lists.mem l t
    · exact (h.lists.valid t w (wait t ▸ e)).congr exchange
  filters x b e m hm t ht := by
    simp only [State.mailbox, exchange] at e
    simp only [State.filterMatches, wait]
    exact h.filters x b e m hm t ht
  cells := by
    have same : s'.exchanges.toList = s.exchanges.toList := by
      apply List.ext_getElem
      · simp
      · intro i hi _
        simpa [State.exchange] using exchange ⟨i, by simpa using hi⟩
    simpa only [State.CellLaw, State.reservedCells, freeCells, same] using h.cells
  lines l := by rw [line]; exact h.lines l
  ticks := by rw [time]; exact h.ticks
  timers := by simpa only [State.TimerLaw, time, wait] using h.timers
  pool := pool

theorem BooksKept.books {s s' : State} {away : Slot → Prop} (k : BooksKept s s') (h : s.Books away) : s'.Books away := by
  refine h.keep k.exchange k.freeCells k.time k.line (by rw [k.pool]) k.wait ?_
  obtain ⟨low, high, map, runs, count⟩ := h.pool
  simp only [State.PoolLaw, k.pool]
  refine ⟨low, high, map, fun e r hr => ?_, count⟩
  obtain ⟨l₁, l₂, inside, live⟩ := runs e r hr
  exact ⟨l₁, l₂, inside, fun free => live (k.freed r.owner free)⟩

theorem BooksKept.rested {s s' : State} (k : BooksKept s s') (h : s.Rested) : s'.Rested where
  exchanges x := by rw [k.exchange]; exact h.exchanges x
  timerOrder := by simpa only [State.TimerOrder, k.time] using h.timerOrder
  headBlocked := by simpa only [State.HeadBlocked, k.pool, k.askedPages] using h.headBlocked

theorem BooksKept.updTask {s : State} {t : Slot} {f : TaskRecord → TaskRecord} (wait : (f (s.task t)).wait = (s.task t).wait)
    (freed : (f (s.task t)).state = .free → (s.task t).state = .free) : BooksKept s (s.updTask t f) where
  exchanges := rfl
  freeCells := rfl
  time := rfl
  lines := rfl
  pool := rfl
  wait u := by
    rw [State.updTask_task]
    split
    · next e => subst e; exact wait
    · rfl
  freed u := by
    simp only [State.states, State.updTask_task]
    split
    · next e => subst e; exact freed
    · exact id

theorem BooksKept.updPort (s : State) (p : Port) (f : PortRecord → PortRecord) : BooksKept s (s.updPort p f) where
  exchanges := by simp
  freeCells := by simp
  time := by simp
  lines := by simp
  pool := by simp
  wait t := by simp
  freed t := by simp [State.states]

theorem BooksKept.setDisposition (s : State) (p : Port) (d : Disposition) : BooksKept s (s.setDisposition p d) :=
  BooksKept.updPort s p fun r => { r with occ := { r.occ with disposition := some d } }

theorem DispatchFrame.wait {s s' : State} (h : DispatchFrame s s') (t : Slot) : (s'.task t).wait = (s.task t).wait := by
  rw [h.task t]

theorem DispatchFrame.doomed {s s' : State} (h : DispatchFrame s s') (t : Slot) :
    (s'.task t).doomed = (s.task t).doomed := by
  rw [h.task t]

theorem DispatchFrame.booksKept {s s' : State} (h : DispatchFrame s s') : BooksKept s s' where
  exchanges := h.exchanges
  freeCells := h.freeCells
  time := h.time
  lines := h.lines
  pool := h.pool
  wait := h.wait
  freed t e := by
    rcases h.state t with k | k | k
    · exact k.symm.trans e
    · rw [State.states, k] at e; cases e
    · rw [State.states, k] at e; cases e

/-! ### The record of one task -/

/-- The task is an occupant with the disposition. -/
def State.Leaving (s : State) (d : Disposition) (t : Slot) : Prop :=
  ∃ p, (s.port p).occ.occupant = some t ∧ (s.port p).occ.disposition = some d

/-- The task's record agrees with its place: a wait record exactly in WAITING and in a departure with WAIT (R7), doom exactly
in a departure with FREE (R10). -/
structure State.RecordLaw (s : State) (t : Slot) : Prop where
  waiting : (s.task t).wait.isSome ↔ (s.states t = .waiting ∨ s.Leaving .wait t)
  doomed : (s.task t).doomed = true ↔ s.Leaving .free t

theorem State.RecordLaw.congr {s s' : State} {t : Slot} (h : s.RecordLaw t)
    (wait : (s'.task t).wait.isSome ↔ (s.task t).wait.isSome) (doomed : (s'.task t).doomed = (s.task t).doomed)
    (waiting : s'.states t = .waiting ↔ s.states t = .waiting)
    (leaving : ∀ d, d = .wait ∨ d = .free → (s'.Leaving d t ↔ s.Leaving d t)) : s'.RecordLaw t where
  waiting := by rw [wait, waiting, leaving _ (.inl rfl)]; exact h.waiting
  doomed := by rw [doomed, leaving _ (.inr rfl)]; exact h.doomed

theorem Dispatches.leaving {v : Slot → Prop} {s s' : State} (h : Dispatches v s s') {d : Disposition} (l : d.Leaves)
    (t : Slot) : s'.Leaving d t ↔ s.Leaving d t :=
  exists_congr fun p => and_congr (by rw [(h.frame.port p).occupant]) (h.departs p d l)

theorem Dispatches.recordLaw {v : Slot → Prop} {s s' : State} (h : Dispatches v s s') {t : Slot}
    (enters : v t → s.states t ≠ .waiting) (r : s.RecordLaw t) : s'.RecordLaw t := by
  refine r.congr (by rw [h.frame.wait]) (h.frame.doomed t) ?_ fun d l => h.leaving ?_ t
  · rcases h.moved t with e | ⟨was, now⟩
    · rw [e]
    · refine iff_of_false (fun e => by rw [e] at now; simp at now) fun e => ?_
      rcases was with k | k | k
      · exact enters k e
      · rw [k] at e; cases e
      · rw [k] at e; cases e
  · rcases l with rfl | rfl <;> simp [Disposition.Leaves]

theorem Dispatches.affinityLaw {v : Slot → Prop} {s s' : State} (h : Dispatches v s s') (a : s.AffinityLaw) :
    s'.AffinityLaw := by
  intro p t hp
  rw [h.frame.affinity]
  rcases hp with o | i
  · exact a p t (.inl ((h.frame.port p).occupant ▸ o))
  · rcases h.permits p t i with i | q
    · exact a p t (.inr i)
    · exact q

theorem State.Leaving.updTask {s : State} {d : Disposition} {t u : Slot} {f : TaskRecord → TaskRecord} :
    (s.updTask t f).Leaving d u ↔ s.Leaving d u := by
  simp only [State.Leaving, State.updTask_port]

/-- The record of another task is not touched. -/
theorem State.RecordLaw.updTask_ne {s : State} {t u : Slot} {f : TaskRecord → TaskRecord} (ne : u ≠ t)
    (h : s.RecordLaw u) : (s.updTask t f).RecordLaw u := by
  have same : (s.updTask t f).task u = s.task u := s.updTask_task_ne f ne.symm
  exact h.congr (by rw [same]) (by rw [same]) (by simp only [State.states, same]) fun d _ => State.Leaving.updTask

/-! ### All of them -/

/-- The laws that hold at every point of an operation, some tasks being away from their lists. -/
structure State.Sound (s : State) (away : Slot → Prop) : Prop where
  ports : ∀ p, (s.port p).Lawful
  dispatcher : s.DispatcherLaw
  urgency : s.UrgencyLaw
  affinity : s.AffinityLaw
  records : ∀ t, s.RecordLaw t
  books : s.Books away

theorem State.lawful_iff {s : State} : s.Lawful ↔ s.Sound Nobody ∧ s.Rested := by
  constructor
  · intro h
    exact ⟨⟨h.ports, h.dispatcher, h.urgency, h.affinity, fun t => ⟨h.waits.1 t, h.doomed t⟩,
      ⟨State.listLaw_iff.1 h.waits.2, h.filters, h.cells, h.lines, h.ticks, h.timers, h.pool⟩⟩,
      h.exchanges, h.timerOrder, h.headBlocked⟩
  · rintro ⟨⟨ports, dispatcher, urgency, affinity, records, books⟩, rested⟩
    exact ⟨ports, dispatcher, urgency, affinity, fun t => (records t).doomed, rested.exchanges, books.cells, books.filters,
      books.lines, books.ticks, books.timers, rested.timerOrder,
      ⟨fun t => (records t).waiting, State.listLaw_iff.2 books.lists⟩, books.pool, rested.headBlocked⟩

theorem State.Lawful.sound {s : State} (h : s.Lawful) : s.Sound Nobody := (State.lawful_iff.1 h).1

theorem State.Lawful.rested {s : State} (h : s.Lawful) : s.Rested := (State.lawful_iff.1 h).2

/-- A port as the Dispatcher leaves it keeps its laws. -/
theorem PortFrame.lawful {r r' : PortRecord} (h : PortFrame r r') (l : r.Lawful) : r'.Lawful where
  bounded := by rw [h.unit]; exact l.bounded
  quietWhenDisabled d := by
    have d' : r.lifecycle = .disabled := h.lifecycle ▸ d
    have quiet := l.quietWhenDisabled d'
    rw [h.idle d' quiet.1]
    exact quiet
  quietUnderReset a := by
    have a' : r.prst = true := h.prst ▸ a
    obtain ⟨d, none_pending, no_command⟩ := l.quietUnderReset a'
    refine ⟨h.lifecycle.trans d, ?_, by rw [h.unit]; exact no_command⟩
    rcases h.intp with e | ⟨b, -⟩
    · rw [e, none_pending]
    · rw [a'] at b; cases b
  sequenceFits := h.sequence l.sequenceFits

/-- The Dispatcher's own work keeps all the laws, if it keeps its own. -/
theorem State.Sound.dispatches {s s' : State} {away : Slot → Prop} (h : s.Sound away) (w : Dispatches Nobody s s')
    (d : s'.DispatcherLaw) (u : s'.UrgencyLaw) : s'.Sound away where
  ports p := (w.frame.port p).lawful (h.ports p)
  dispatcher := d
  urgency := u
  affinity := w.affinityLaw h.affinity
  records t := w.recordLaw False.elim (h.records t)
  books := w.frame.booksKept.books h.books

theorem State.Lawful.dispatches {s s' : State} (h : s.Lawful) (w : Dispatches Nobody s s') (d : s'.DispatcherLaw)
    (u : s'.UrgencyLaw) : s'.Lawful :=
  State.lawful_iff.2 ⟨h.sound.dispatches w d u, w.frame.booksKept.rested h.rested⟩

/-! ### Changes of one task's record -/

/-- The Dispatcher reads the priority alone of a record. -/
theorem State.Arranged.updTask {s : State} {place : Slot → TaskState} (h : s.Arranged place) {t : Slot}
    {f : TaskRecord → TaskRecord} (priority : (f (s.task t)).priority = (s.task t).priority) :
    (s.updTask t f).Arranged place :=
  h.congr (by simp)
    (fun u => by
      rw [State.updTask_task]
      split
      · next e => subst e; exact priority
      · rfl)
    (by simp) (fun p u => by simp only [State.isIncoming, State.updTask_port]) (.refl _)

theorem State.updTask_states (s : State) (t : Slot) (f : TaskRecord → TaskRecord) :
    (s.updTask t f).states = moveTo s.states t (f (s.task t)).state := by
  funext u
  simp only [State.states, State.updTask_task, moveTo, eq_comm (a := t)]
  split <;> rfl

theorem State.updTask_isIncoming (s : State) (t : Slot) (f : TaskRecord → TaskRecord) (p : Port) (u : Slot) :
    (s.updTask t f).isIncoming p u = s.isIncoming p u := by
  simp only [State.isIncoming, State.updTask_port]

theorem State.updTask_next (s : State) (t : Slot) (f : TaskRecord → TaskRecord) (p : Port) :
    (s.updTask t f).next p = s.next p := by
  simp only [State.next, State.updTask_port]

theorem moveTo_eq_self {place : Slot → TaskState} {t : Slot} {x : TaskState} (h : place t = x) : moveTo place t x = place := by
  funext u
  simp only [moveTo]
  split
  · next e => rw [e, h]
  · rfl

/-- Urgency reads the state, the priority and the affinity of a record. -/
theorem State.UrgentOn.updTask {s : State} {p : Port} {v : Slot → Prop} (h : s.UrgentOn p v) {t : Slot}
    {f : TaskRecord → TaskRecord} (priority : (f (s.task t)).priority = (s.task t).priority)
    (affinity : (f (s.task t)).affinity = (s.task t).affinity)
    (ready : (f (s.task t)).state = .ready → (s.task t).state = .ready) : (s.updTask t f).UrgentOn p v := by
  have pri (u : Slot) : ((s.updTask t f).task u).priority = (s.task u).priority := by
    rw [State.updTask_task]
    split
    · next e => subst e; exact priority
    · rfl
  have urgency (y : Option Slot) : (s.updTask t f).urgency y = s.urgency y := by
    cases y <;> simp only [State.urgency, pri]
  intro u r k e
  rw [urgency, urgency, State.updTask_next]
  refine h u ?_ k ?_
  · rw [State.updTask_states, moveTo] at r
    split at r
    · next e => subst e; exact ready r
    · exact r
  · simp only [State.eligible, State.updTask_port, State.updTask_task] at e
    split at e
    · next e' => subst e'; rw [affinity] at e; exact e
    · exact e

/-- What of a record the laws do not read (R2): the context word, the quantum, the holds, the delivery. -/
theorem State.Sound.updTask {s : State} {away : Slot → Prop} (h : s.Sound away) {t : Slot} {f : TaskRecord → TaskRecord}
    (state : (f (s.task t)).state = (s.task t).state) (priority : (f (s.task t)).priority = (s.task t).priority)
    (affinity : (f (s.task t)).affinity = (s.task t).affinity) (wait : (f (s.task t)).wait = (s.task t).wait)
    (doomed : (f (s.task t)).doomed = (s.task t).doomed) : (s.updTask t f).Sound away where
  ports p := by rw [State.updTask_port]; exact h.ports p
  dispatcher := by
    refine State.dispatcherLaw_iff.2 ⟨?_, fun p => by rw [State.updTask_port]; exact h.dispatcher.fits p⟩
    rw [State.updTask_states, moveTo_eq_self (x := (f (s.task t)).state) state.symm]
    exact h.dispatcher.arranged.updTask priority
  urgency := State.urgencyLaw_iff.2 fun p =>
    (State.urgencyLaw_iff.1 h.urgency p).updTask priority affinity fun r => state ▸ r
  affinity p u hp := by
    rw [State.updTask_port, State.updTask_isIncoming] at hp
    have permits := h.affinity p u hp
    rw [State.updTask_task]
    split
    · next e => subst e; rw [affinity]; exact permits
    · exact permits
  records u := by
    by_cases e : u = t
    · subst e
      refine (h.records u).congr (by simp [wait]) (by simp [doomed]) ?_ fun _ _ => State.Leaving.updTask
      rw [State.updTask_states, moveTo_self, state]; rfl
    · exact (h.records u).updTask_ne e
  books := (BooksKept.updTask wait fun e => state ▸ e).books h.books

end Sys2Proof.Machine

/-! ## Joining and leaving the lists (R7, R9, R82) -/

namespace Sys2Proof.Machine

/-! ### The lists of the exchanges -/

/-- A change of a mailbox; any other exchange is as it was. -/
def ExchangeState.mapMailbox (f : Mailbox → Mailbox) : ExchangeState → ExchangeState
  | .message o b => .message o (f b)
  | e => e

/-- A change of a count record; any other exchange is as it was. -/
def ExchangeState.mapCounter (f : Counter → Counter) : ExchangeState → ExchangeState
  | .count o c => .count o (f c)
  | e => e

theorem updMailbox_exchange (s : State) (x : Fin 16) (f : Mailbox → Mailbox) (y : Fin 16) :
    (s.updMailbox x f).exchange y =
      if x = y then { s.exchange x with state := (s.exchange x).state.mapMailbox f } else s.exchange y := by
  unfold State.updMailbox
  split
  · next o b e => rw [State.setExchange_exchange, e]; rfl
  all_goals
    next e =>
    split
    · next same => subst same; rw [e, ExchangeState.mapMailbox, ← e]; simp
    · rfl

theorem updCounter_exchange (s : State) (x : Fin 16) (f : Counter → Counter) (y : Fin 16) :
    (s.updCounter x f).exchange y =
      if x = y then { s.exchange x with state := (s.exchange x).state.mapCounter f } else s.exchange y := by
  unfold State.updCounter
  split
  · next o b e => rw [State.setExchange_exchange, e]; rfl
  all_goals
    next e =>
    split
    · next same => subst same; rw [e, ExchangeState.mapCounter, ← e]; simp
    · rfl

/-- A change of a mailbox reaches no list but its own two. -/
theorem updMailbox_entries {s : State} {x : Fin 16} {f : Mailbox → Mailbox} {l : WaitList}
    (receivers : l = .receivers x → ∀ b, (f b).receivers = b.receivers)
    (senders : l = .senders x → ∀ b, (f b).senders = b.senders) : (s.updMailbox x f).entries l = s.entries l := by
  have exchange (y : Fin 16) := updMailbox_exchange s x f y
  cases l with
  | receivers y =>
    simp only [State.entries, exchange]
    split
    · next e =>
      subst e
      cases (s.exchange x).state with
      | message o b => exact receivers rfl b
      | _ => rfl
    · rfl
  | senders y =>
    simp only [State.entries, exchange]
    split
    · next e =>
      subst e
      cases (s.exchange x).state with
      | message o b => exact senders rfl b
      | _ => rfl
    · rfl
  | acquirers y =>
    simp only [State.entries, exchange]
    split
    · next e => subst e; cases (s.exchange x).state <;> rfl
    · rfl
  | line l => rw [State.entries, State.updMailbox_line]; rfl
  | pages => rw [State.entries, State.updMailbox_pool]; rfl

/-- A change of a count record reaches no list but its own. -/
theorem updCounter_entries {s : State} {x : Fin 16} {f : Counter → Counter} {l : WaitList}
    (acquirers : l = .acquirers x → ∀ c, (f c).acquirers = c.acquirers) : (s.updCounter x f).entries l = s.entries l := by
  have exchange (y : Fin 16) := updCounter_exchange s x f y
  cases l with
  | receivers y | senders y =>
    simp only [State.entries, exchange]
    split
    · next e => subst e; cases (s.exchange x).state <;> rfl
    · rfl
  | acquirers y =>
    simp only [State.entries, exchange]
    split
    · next e =>
      subst e
      cases (s.exchange x).state with
      | count o c => exact acquirers rfl c
      | _ => rfl
    · rfl
  | line l => rw [State.entries, State.updCounter_line]; rfl
  | pages => rw [State.entries, State.updCounter_pool]; rfl

theorem updLine_entries {s : State} {m : Line} {f : LineRecord → LineRecord} {l : WaitList} (ne : l ≠ .line m) :
    (s.updLine m f).entries l = s.entries l := by
  cases l with
  | line l => rw [State.entries, State.updLine_line, if_neg (by rintro rfl; exact ne rfl)]; rfl
  | _ => rfl

theorem updPool_entries {s : State} {f : PagePool → PagePool} {l : WaitList} (ne : l ≠ .pages) :
    (s.updPool f).entries l = s.entries l := by
  cases l with
  | pages => exact absurd rfl ne
  | _ => rfl

/-- Leaving a list takes the task's entry off it, -/
theorem leaveList_entries_self (t : Slot) {k : WaitKind} (s : State) {l : WaitList} (h : k.list = some l) :
    (leaveList t k s).entries l = (s.entries l).erase t := by
  cases l with
  | receivers x =>
    obtain ⟨id, low, high, rfl, i⟩ := WaitKind.list_eq_receivers.1 h
    simp only [leaveList, i, State.entries, updMailbox_exchange, if_true]
    cases (s.exchange x).state <;> rfl
  | senders x =>
    obtain ⟨id, m, rfl, i⟩ := WaitKind.list_eq_senders.1 h
    simp only [leaveList, i, State.entries, updMailbox_exchange, if_true]
    cases (s.exchange x).state <;> rfl
  | acquirers x =>
    obtain ⟨id, rfl, i⟩ := WaitKind.list_eq_acquirers.1 h
    simp only [leaveList, i, State.entries, updCounter_exchange, if_true]
    cases (s.exchange x).state <;> rfl
  | line l =>
    obtain rfl := WaitKind.list_eq_line.1 h
    simp only [leaveList, State.entries, State.updLine_line, if_true]
  | pages =>
    obtain ⟨n, rfl⟩ := WaitKind.list_eq_pages.1 h
    rfl

/-- and leaves every other list. -/
theorem leaveList_entries_ne (t : Slot) {k : WaitKind} (s : State) {l : WaitList} (h : k.list ≠ some l) :
    (leaveList t k s).entries l = s.entries l := by
  cases k with
  | delay => rfl
  | recv id low high =>
    cases i : exchangeIndex id with
    | none => simp only [leaveList, i]
    | some x =>
      simp only [leaveList, i]
      exact updMailbox_entries (fun e => absurd (by simp [WaitKind.list, i, e]) h) fun _ _ => rfl
  | send id m =>
    cases i : exchangeIndex id with
    | none => simp only [leaveList, i]
    | some x =>
      simp only [leaveList, i]
      exact updMailbox_entries (fun _ _ => rfl) fun e => absurd (by simp [WaitKind.list, i, e]) h
  | acquire id =>
    cases i : exchangeIndex id with
    | none => simp only [leaveList, i]
    | some x =>
      simp only [leaveList, i]
      exact updCounter_entries fun e => absurd (by simp [WaitKind.list, i, e]) h
  | event m => exact updLine_entries fun e => h (e ▸ rfl)
  | pages n => exact updPool_entries fun e => h (e ▸ rfl)

@[simp] theorem leaveList_time (t : Slot) (k : WaitKind) (s : State) : (leaveList t k s).time = s.time := by
  cases k with
  | recv id _ _ | send id _ | acquire id => cases i : exchangeIndex id <;> simp [leaveList, i]
  | _ => rfl

/-- A task that leaves its wait is in no list; every other task is where it was. -/
theorem leaveWait_entries {s : State} {away : Slot → Prop} (h : s.ListsFit away) (t : Slot) (l : WaitList) :
    ((leaveWait t s).entries l).Nodup ∧ ∀ u, u ∈ (leaveWait t s).entries l ↔ u ≠ t ∧ u ∈ s.entries l := by
  have untimed (u : State) : (removeTimer t u).entries l = u.entries l := by cases l <;> rfl
  have mem := h.mem l t
  unfold leaveWait
  cases w : (s.task t).wait with
  | none =>
    have no : t ∉ s.entries l := fun m => by
      obtain ⟨-, w', e, -⟩ := mem.1 m
      rw [w] at e; cases e
    refine ⟨by rw [untimed]; exact h.nodup l, fun u => ?_⟩
    rw [untimed]
    exact ⟨fun m => ⟨by rintro rfl; exact no m, m⟩, And.right⟩
  | some w' =>
    simp only [untimed]
    by_cases e : w'.kind.list = some l
    · rw [leaveList_entries_self t s e]
      exact ⟨(h.nodup l).erase t, fun u => (h.nodup l).mem_erase_iff⟩
    · have no : t ∉ s.entries l := fun m => by
        obtain ⟨-, w'', e', k⟩ := mem.1 m
        obtain rfl := Option.some.inj (w.symm.trans e')
        exact e k
      rw [leaveList_entries_ne t s e]
      exact ⟨h.nodup l, fun u => ⟨fun m => ⟨by rintro rfl; exact no m, m⟩, And.right⟩⟩

/-! ### The frame of shrinking lists -/

/-- Two exchange states that differ in their lists of waiters alone. -/
def ExchangeState.Relists : ExchangeState → ExchangeState → Prop
  | .closed, e => e = .closed
  | .message o b, e => ∃ r q, e = .message o { b with receivers := r, senders := q }
  | .count o c, e => ∃ a, e = .count o { c with acquirers := a }

theorem ExchangeState.Relists.refl (e : ExchangeState) : e.Relists e := by
  cases e with
  | closed => rfl
  | message o b => exact ⟨_, _, rfl⟩
  | count o c => exact ⟨_, rfl⟩

theorem ExchangeState.Relists.message {e e' : ExchangeState} (h : e.Relists e') {o : WaiterOrder} {b : Mailbox}
    (m : e = .message o b) : ∃ r q, e' = .message o { b with receivers := r, senders := q } := by
  subst m; exact h

theorem ExchangeState.Relists.count {e e' : ExchangeState} (h : e.Relists e') {o : WaiterOrder} {c : Counter}
    (m : e = .count o c) : ∃ a, e' = .count o { c with acquirers := a } := by
  subst m; exact h

/-- An exchange that is a mailbox with other lists was one before. -/
theorem ExchangeState.Relists.of_message {e e' : ExchangeState} (h : e.Relists e') {o : WaiterOrder} {b' : Mailbox}
    (m : e' = .message o b') : ∃ b, e = .message o b ∧ b'.queue = b.queue ∧ b'.capacity = b.capacity := by
  cases e with
  | closed => rw [ExchangeState.Relists] at h; rw [h] at m; cases m
  | message o' b =>
    obtain ⟨r, q, e⟩ := h.message rfl
    rw [m] at e; cases e
    exact ⟨b, rfl, rfl, rfl⟩
  | count o' c =>
    obtain ⟨a, e⟩ := h.count rfl
    rw [m] at e; cases e

theorem ExchangeState.Relists.cells {e e' : ExchangeState} (h : e.Relists e') : e'.cells = e.cells := by
  cases e with
  | closed => rw [ExchangeState.Relists] at h; rw [h]
  | message o b => obtain ⟨r, q, rfl⟩ := h.message rfl; rfl
  | count o c => obtain ⟨a, rfl⟩ := h.count rfl; rfl

theorem ExchangeState.Shrinks.relists {e e' : ExchangeState} (h : e.Shrinks e') : e.Relists e' := by
  cases e with
  | closed => exact h
  | message o b => obtain ⟨r, q, e, -⟩ := h; exact ⟨r, q, e⟩
  | count o c => obtain ⟨a, e, -⟩ := h; exact ⟨a, e⟩

/-- What a wait may name does not depend on the lists. -/
theorem State.Valid.relist {s s' : State} (generation : ∀ x, (s'.exchange x).generation = (s.exchange x).generation)
    (exchange : ∀ x, (s.exchange x).state.Relists (s'.exchange x).state) {k : WaitKind} (v : s.Valid k) : s'.Valid k := by
  have id (x : Fin 16) : s'.exchangeId x = s.exchangeId x := by simp only [State.exchangeId, generation]
  cases k with
  | recv i low high | send i m =>
    obtain ⟨x, o, b, rfl, e⟩ := v
    obtain ⟨r, q, e'⟩ := (exchange x).message e
    exact ⟨x, o, _, (id x).symm, e'⟩
  | acquire i =>
    obtain ⟨x, o, c, rfl, e⟩ := v
    obtain ⟨a, e'⟩ := (exchange x).count e
    exact ⟨x, o, _, (id x).symm, e'⟩
  | delay | event l => exact trivial
  | pages n => exact v

theorem ExchangeState.Shrinks.message {e e' : ExchangeState} (h : e.Shrinks e') {o : WaiterOrder} {b : Mailbox}
    (m : e = .message o b) :
    ∃ r q, e' = .message o { b with receivers := r, senders := q } ∧ r.Sublist b.receivers ∧ q.Sublist b.senders := by
  subst m; exact h

theorem ExchangeState.Shrinks.count {e e' : ExchangeState} (h : e.Shrinks e') {o : WaiterOrder} {c : Counter}
    (m : e = .count o c) : ∃ a, e' = .count o { c with acquirers := a } ∧ a.Sublist c.acquirers := by
  subst m; exact h

/-- An exchange that is a mailbox after losing entries was one before. -/
theorem ExchangeState.Shrinks.of_message {e e' : ExchangeState} (h : e.Shrinks e') {o : WaiterOrder} {b' : Mailbox}
    (m : e' = .message o b') : ∃ b, e = .message o b ∧ b'.queue = b.queue ∧ b'.capacity = b.capacity ∧
      b'.receivers.Sublist b.receivers ∧ b'.senders.Sublist b.senders := by
  cases e with
  | closed => rw [ExchangeState.Shrinks] at h; rw [h] at m; cases m
  | message o' b =>
    obtain ⟨r, q, e, hr, hq⟩ := h.message rfl
    rw [m] at e; cases e
    exact ⟨b, rfl, rfl, rfl, hr, hq⟩
  | count o' c =>
    obtain ⟨a, e, -⟩ := h.count rfl
    rw [m] at e; cases e

theorem ExchangeState.Shrinks.lawful {e e' : ExchangeState} (h : e.Shrinks e') (l : e.Lawful) : e'.Lawful := by
  cases e with
  | closed => rw [ExchangeState.Shrinks] at h; rw [h]; exact trivial
  | message o b =>
    obtain ⟨r, q, rfl, -, hq⟩ := h.message rfl
    obtain ⟨l₁, l₂, l₃, l₄⟩ := l
    exact ⟨l₁, l₂, l₃, fun ne => l₄ fun e => ne (List.sublist_nil.1 (e ▸ hq))⟩
  | count o c =>
    obtain ⟨a, rfl, ha⟩ := h.count rfl
    obtain ⟨l₁, l₂, l₃, l₄⟩ := l
    exact ⟨l₁, l₂, l₃, fun ne => l₄ fun e => ne (List.sublist_nil.1 (e ▸ ha))⟩

theorem ObjectFrame.valid {s s' : State} (h : ObjectFrame s s') {k : WaitKind} (v : s.Valid k) : s'.Valid k :=
  v.relist h.generation fun x => (h.exchange x).relists

/-- The reserved cells, exchange by exchange. -/
theorem State.reservedCells_eq (s : State) :
    s.reservedCells = ((List.finRange 16).map fun x => (s.exchange x).state.cells).sum := by
  have h : s.exchanges.toList = (List.finRange 16).map s.exchange := by
    apply List.ext_getElem <;> simp [State.exchange]
  rw [State.reservedCells, h, List.map_map]
  rfl

theorem State.CellLaw.relist {s s' : State} (h : s.CellLaw) (freeCells : s'.freeCells = s.freeCells)
    (exchange : ∀ x, (s.exchange x).state.Relists (s'.exchange x).state) : s'.CellLaw := by
  simp only [State.CellLaw, State.reservedCells_eq, freeCells, (exchange _).cells] at h ⊢
  exact h

theorem ObjectFrame.cellLaw {s s' : State} (h : ObjectFrame s s') (l : s.CellLaw) : s'.CellLaw :=
  l.relist h.freeCells fun x => (h.exchange x).relists

theorem State.mailbox_eq_some {s : State} {x : Fin 16} {b : Mailbox} :
    s.mailbox x = some b ↔ ∃ o, (s.exchange x).state = .message o b := by
  unfold State.mailbox
  cases (s.exchange x).state <;> simp

/-- A wait record that is the same or gone. -/
def WaitsDrop (s s' : State) : Prop := ∀ t, (s'.task t).wait = (s.task t).wait ∨ (s'.task t).wait = none

theorem WaitsDrop.filterMatches {s s' : State} (h : WaitsDrop s s') {tag : Byte} {t : Slot}
    (no : s.filterMatches tag t = false) : s'.filterMatches tag t = false := by
  unfold State.filterMatches at no ⊢
  rcases h t with e | e
  · rw [e]; exact no
  · rw [e]

theorem ObjectFrame.filterLaw {s s' : State} (h : ObjectFrame s s') (w : WaitsDrop s s') (l : s.FilterLaw) : s'.FilterLaw := by
  intro x b' e m hm t ht
  obtain ⟨o, e⟩ := State.mailbox_eq_some.1 e
  obtain ⟨b, e', queue, -, receivers, -⟩ := (h.exchange x).of_message e
  exact w.filterMatches (l x b (State.mailbox_eq_some.2 ⟨o, e'⟩) m (queue ▸ hm) t (receivers.subset ht))

theorem ObjectFrame.lineLaw {s s' : State} (h : ObjectFrame s s') {l : Line} (k : (s.line l).Lawful) : (s'.line l).Lawful := by
  rw [h.line l]
  exact ⟨k.1, fun ne => k.2 fun e => ne (List.sublist_nil.1 (e ▸ h.waiters l))⟩

theorem ObjectFrame.ticks {s s' : State} (h : ObjectFrame s s') (k : s.time.Bounded) : s'.time.Bounded := by
  rw [h.time]; exact k

theorem ObjectFrame.timerOrder {s s' : State} (h : ObjectFrame s s') (k : s.TimerOrder) : s'.TimerOrder := by
  have counter : s'.time.counter = s.time.counter := by rw [h.time]
  unfold State.TimerOrder
  rw [counter]
  exact ⟨k.1.sublist (h.timers.map _), fun e he => k.2 e (h.timers.subset he)⟩

theorem ObjectFrame.exchangesLawful {s s' : State} (h : ObjectFrame s s') (k : ∀ x, (s.exchange x).state.Lawful) (x : Fin 16) :
    (s'.exchange x).state.Lawful := (h.exchange x).lawful (k x)

/-- The law of the pool reads neither the queue nor more of a task than whether it is FREE. -/
theorem State.PoolLaw.congr {s s' : State} (h : s.PoolLaw) (pool : s'.pool = { s.pool with waitQueue := s'.pool.waitQueue })
    (freed : ∀ t, s'.states t = .free → s.states t = .free) : s'.PoolLaw := by
  obtain ⟨low, high, map, runs, count⟩ := h
  unfold State.PoolLaw
  rw [pool]
  refine ⟨low, high, map, fun e r hr => ?_, count⟩
  obtain ⟨l₁, l₂, inside, live⟩ := runs e r hr
  exact ⟨l₁, l₂, inside, fun free => live (freed r.owner free)⟩

/-! ### A task that drops its wait -/

theorem updTask_objectFrame (s : State) (t : Slot) (f : TaskRecord → TaskRecord) : ObjectFrame s (s.updTask t f) :=
  ⟨fun p => by simp only [State.updTask_port]; exact .refl _, fun _ => rfl, fun _ => .refl _, rfl, rfl, .refl _,
    fun _ => rfl, fun _ => .refl _, rfl, .refl _, rfl, rfl, rfl⟩


/-- The task's wait record, its entry in its list and its timer entry are gone, by whatever is written in its record. -/
theorem State.Books.dropWait {s : State} {away away' : Slot → Prop} (h : s.Books away) {t : Slot} {f : TaskRecord → TaskRecord}
    (wait : (f (s.task t)).wait = none) (live : (f (s.task t)).state = .free → (s.task t).state = .free)
    (others : ∀ u, u ≠ t → (away' u ↔ away u)) : ((leaveWait t s).updTask t f).Books away' := by
  have frame : ObjectFrame s ((leaveWait t s).updTask t f) := (leaveWait_frame t s).objects.trans (updTask_objectFrame _ t f)
  have self : (((leaveWait t s).updTask t f).task t).wait = none := by rw [State.updTask_task_self, leaveWait_task, wait]
  have other {u : Slot} (ne : u ≠ t) : (((leaveWait t s).updTask t f).task u) = s.task u := by
    rw [State.updTask_task_ne _ _ ne.symm, leaveWait_task]
  have drops : WaitsDrop s ((leaveWait t s).updTask t f) := fun u => by
    by_cases e : u = t
    · subst e; exact .inr self
    · exact .inl (by rw [other e])
  refine
    { lists := ⟨fun l => ?_, fun l u => ?_, fun u w e => ?_⟩
      filters := frame.filterLaw drops h.filters
      cells := frame.cellLaw h.cells
      lines := fun l => frame.lineLaw (h.lines l)
      ticks := frame.ticks h.ticks
      timers := ?_
      pool := h.pool.congr (leaveWait_frame t s).pool fun u e => ?_ }
  · have : ((leaveWait t s).updTask t f).entries l = (leaveWait t s).entries l := by cases l <;> rfl
    rw [this]
    exact (leaveWait_entries h.lists t l).1
  · have : ((leaveWait t s).updTask t f).entries l = (leaveWait t s).entries l := by cases l <;> rfl
    rw [this, (leaveWait_entries h.lists t l).2 u]
    by_cases e : u = t
    · subst e
      refine iff_of_false (fun k => k.1 rfl) ?_
      rintro ⟨-, w, k, -⟩
      rw [self] at k; cases k
    · rw [h.lists.mem l u, others u e]
      simp only [State.waitsIn, other e, ne_eq, e, not_false_eq_true, true_and]
  · have ne : u ≠ t := by rintro rfl; rw [self] at e; cases e
    exact frame.valid (h.lists.valid u w (other ne ▸ e))
  · have timers : ((leaveWait t s).updTask t f).time.timers = s.time.timers.filter (·.task != t) := by
      unfold leaveWait
      split
      · rfl
      · next w _ => exact congrArg (fun u : TickUnit => u.timers.filter (·.task != t)) (leaveList_time t w.kind s)
    refine ⟨?_, fun u d => ?_⟩
    · rw [timers]
      exact h.timers.1.sublist (List.filter_sublist.map _)
    · rw [timers, List.mem_filter]
      by_cases e : u = t
      · subst e
        simp [wait]
      · rw [h.timers.2 u d, other e]
        simp [e]
  · rw [State.updTask_states, moveTo] at e
    split at e
    · next k => subst k; rw [leaveWait_task] at e; exact live e
    · simpa only [State.states, leaveWait_task] using e

end Sys2Proof.Machine

/-! ## Tasks between two places

In the middle of an operation a task may have left its place for no other yet. `State.Limbo` says all the laws but for such
tasks; a task comes out of limbo by taking a place outside the Dispatcher or by becoming READY. -/

namespace Sys2Proof.Machine

/-- All the laws of `State.Sound` but for some tasks, which the Dispatcher has nowhere whatever their records say. -/
structure State.Limbo (s : State) (v away : Slot → Prop) : Prop where
  ports : ∀ p, (s.port p).Lawful
  arranged : ∃ place, s.Arranged place ∧ (∀ u, v u → (place u).Away) ∧ ∀ u, ¬v u → place u = s.states u
  fits : ∀ p, (s.port p).Fits
  urgent : ∀ p, s.UrgentOn p v
  affinity : s.AffinityLaw
  records : ∀ u, ¬v u → s.RecordLaw u
  books : s.Books away

section
variable {s s' : State} {v w away away' : Slot → Prop} {t : Slot}

theorem State.limbo_nobody : s.Limbo Nobody away ↔ s.Sound away := by
  constructor
  · intro h
    obtain ⟨place, a, -, same⟩ := h.arranged
    obtain rfl : place = s.states := funext fun u => same u id
    exact ⟨h.ports, State.dispatcherLaw_iff.2 ⟨a, h.fits⟩, State.urgencyLaw_iff.2 h.urgent, h.affinity,
      fun u => h.records u id, h.books⟩
  · intro h
    exact ⟨h.ports, ⟨_, h.dispatcher.arranged, fun _ => False.elim, fun _ _ => rfl⟩, h.dispatcher.fits,
      State.urgencyLaw_iff.1 h.urgency, h.affinity, fun u _ => h.records u, h.books⟩

theorem State.Limbo.dispatcherBut (h : s.Limbo (· = t) away) : s.DispatcherBut t := by
  obtain ⟨place, a, gone, same⟩ := h.arranged
  refine ⟨a.places fun u => ?_, h.fits⟩
  by_cases e : u = t
  · rw [e, moveTo_self]
    exact .inr ⟨gone t rfl, away_held⟩
  · rw [moveTo_ne _ _ e]
    exact .inl (same u e)

theorem State.Limbo.not_occupant (h : s.Limbo v away) (hv : v t) (p : Port) : (s.port p).occ.occupant ≠ some t := fun o => by
  obtain ⟨place, a, gone, -⟩ := h.arranged
  exact (gone t hv).2.1 ((a.occupants t).2 ⟨p, o⟩)

theorem State.Limbo.not_incoming (h : s.Limbo v away) (hv : v t) (p : Port) : s.isIncoming p t ≠ true := fun i => by
  obtain ⟨place, a, gone, -⟩ := h.arranged
  exact (gone t hv).2.2 ((a.incomings t).2 ⟨p, i⟩)

/-- The next of a port is its occupant or the incoming of its SWITCH offer. -/
theorem State.next_cases {p : Port} {y : Option Slot} (f : ∀ o, (s.port p).occ.offer = some o → o.kind = .continueTask →
    o.incoming = (s.port p).occ.occupant) (h : s.next p = y) :
    (s.port p).occ.occupant = y ∨ ∀ t, y = some t → s.isIncoming p t = true := by
  unfold State.next at h
  unfold State.isIncoming
  cases o : (s.port p).occ.offer with
  | none => rw [o] at h; exact .inl h
  | some g =>
    rw [o] at h
    cases k : g.kind with
    | switchTask => exact .inr fun t e => by simp [k, show g.incoming = y from h, e]
    | continueTask => exact .inl ((f g o k).symm.trans h)

theorem State.Limbo.not_next (h : s.Limbo v away) (hv : v t) (p : Port) : s.next p ≠ some t := fun e => by
  rcases State.next_cases (h.fits p).continues e with o | i
  · exact h.not_occupant hv p o
  · exact h.not_incoming hv p (i t rfl)

/-- Arrangement reads the priorities of READY tasks alone. -/
theorem State.Arranged.reprioritised {place : Slot → TaskState} (a : s.Arranged place) (queue : ∀ l, s'.queue l = s.queue l)
    (priority : ∀ u, place u = .ready → (s'.task u).priority = (s.task u).priority)
    (occupant : ∀ p, (s'.port p).occ.occupant = (s.port p).occ.occupant)
    (offer : ∀ p, (s'.port p).occ.offer = (s.port p).occ.offer) : s'.Arranged place where
  queues u l := by
    rw [queue, a.queues u l]
    by_cases r : place u = .ready
    · rw [priority u r]
    · rw [if_neg fun k => r k.1, if_neg fun k => r k.1]
  occupants := by simpa only [occupant] using a.occupants
  oneOccupied := by simpa only [occupant] using a.oneOccupied
  incomings := by simpa only [State.isIncoming, offer] using a.incomings
  oneIncoming := by simpa only [State.isIncoming, offer] using a.oneIncoming

theorem State.isIncoming_congr {p : Port} (port : s'.port p = s.port p) (u : Slot) : s'.isIncoming p u = s.isIncoming p u := by
  simp only [State.isIncoming, port]

theorem State.next_congr {p : Port} (port : s'.port p = s.port p) : s'.next p = s.next p := by
  simp only [State.next, port]

/-- The records of the tasks in limbo, and the objects, may change as the books allow. -/
theorem State.Limbo.change (h : s.Limbo v away) (port : ∀ p, s'.port p = s.port p) (queue : ∀ l, s'.queue l = s.queue l)
    (task : ∀ u, ¬v u → s'.task u = s.task u) (books : s'.Books away') : s'.Limbo v away' where
  ports p := by rw [port]; exact h.ports p
  arranged := by
    obtain ⟨place, a, gone, same⟩ := h.arranged
    refine ⟨place, a.reprioritised queue (fun u r => ?_) (fun p => by rw [port]) (fun p => by rw [port]), gone, fun u hu => ?_⟩
    · rw [task u fun hu => (gone u hu).1 r]
    · rw [same u hu, State.states, State.states, task u hu]
  fits p := by rw [port]; exact h.fits p
  urgent p u r hu e := by
    have next : s'.urgency (s'.next p) = s.urgency (s.next p) := by
      rw [State.next_congr (port p)]
      cases n : s.next p with
      | none => rfl
      | some y =>
        have : ¬v y := fun hy => h.not_next hy p n
        simp only [State.urgency, task y this]
    rw [next, State.urgency, task u hu]
    refine h.urgent p u ?_ hu ?_
    · rwa [State.states, task u hu] at r
    · simpa only [State.eligible, task u hu, port] using e
  affinity p u hp := by
    rw [port, State.isIncoming_congr (port p)] at hp
    have : ¬v u := fun hu => hp.elim (h.not_occupant hu p) (h.not_incoming hu p)
    rw [task u this]
    exact h.affinity p u hp
  records u hu := by
    refine (h.records u hu).congr (by rw [task u hu]) (by rw [task u hu]) (by rw [State.states, State.states, task u hu]) ?_
    intro d _
    simp only [State.Leaving, port]
  books := books

theorem State.Limbo.updTask (h : s.Limbo v away) (hv : v t) {f : TaskRecord → TaskRecord} (books : (s.updTask t f).Books away') :
    (s.updTask t f).Limbo v away' :=
  h.change (by simp) (fun _ => rfl) (fun _ hu => s.updTask_task_ne f fun e => hu (e ▸ hv)) books

/-- A task that is in no place of the Dispatcher, and whose record says so, is out of limbo. -/
theorem State.Limbo.settle (h : s.Limbo v away) (out : ∀ u, w u ↔ v u ∧ u ≠ t) (outside : (s.states t).Away)
    (record : s.RecordLaw t) : s.Limbo w away where
  ports := h.ports
  arranged := by
    obtain ⟨place, a, gone, same⟩ := h.arranged
    refine ⟨moveTo place t (s.states t), a.places fun u => ?_, fun u hu => ?_, fun u hu => ?_⟩
    · by_cases e : u = t
      · rw [e, moveTo_self]
        by_cases hv : v t
        · exact .inr ⟨gone t hv, outside⟩
        · exact .inl (same t hv)
      · exact .inl (moveTo_ne _ _ e).symm
    · rw [moveTo_ne _ _ ((out u).1 hu).2]
      exact gone u ((out u).1 hu).1
    · by_cases e : u = t
      · rw [e, moveTo_self]
      · rw [moveTo_ne _ _ e]
        exact same u fun hv => hu ((out u).2 ⟨hv, e⟩)
  fits := h.fits
  urgent p u r hu e := h.urgent p u r (fun hv => hu ((out u).2 ⟨hv, by rintro rfl; exact outside.1 r⟩)) e
  affinity := h.affinity
  records u hu := by
    by_cases e : u = t
    · exact e ▸ record
    · exact h.records u fun hv => hu ((out u).2 ⟨hv, e⟩)
  books := h.books

/-- The last task comes out of limbo. -/
theorem State.Limbo.sound (h : s.Limbo (· = t) away) (outside : (s.states t).Away) (record : s.RecordLaw t) : s.Sound away :=
  State.limbo_nobody.1 (h.settle (fun _ => ⟨False.elim, fun k => k.2 k.1⟩) outside record)

/-- A record with no wait and no doom agrees with every place that is no departure, WAITING apart. -/
theorem State.Limbo.recordLaw (h : s.Limbo v away) (hv : v t) (waiting : (s.task t).wait.isSome ↔ s.states t = .waiting)
    (doomed : (s.task t).doomed = false) : s.RecordLaw t where
  waiting := waiting.trans ⟨.inl, fun k => k.elim id fun ⟨p, o, _⟩ => absurd o (h.not_occupant hv p)⟩
  doomed := by
    rw [doomed]
    exact iff_of_false Bool.false_ne_true fun ⟨p, o, _⟩ => h.not_occupant hv p o

/-- A task outside the Dispatcher may as well be in limbo. -/
theorem State.Sound.limbo (h : s.Sound away) (outside : (s.states t).Away) : s.Limbo (· = t) away where
  ports := h.ports
  arranged := ⟨s.states, h.dispatcher.arranged, fun _ e => e ▸ outside, fun _ _ => rfl⟩
  fits := h.dispatcher.fits
  urgent p := (State.urgencyLaw_iff.1 h.urgency p).mono fun _ => False.elim
  affinity := h.affinity
  records u _ := h.records u
  books := h.books

theorem State.Sound.unqueue (h : s.Sound away) (ready : s.states t = .ready) : (unqueue t s).Limbo (· = t) away where
  ports p := by rw [Machine.unqueue, State.updQueue_port]; exact h.ports p
  arranged := by
    refine ⟨_, h.dispatcher.arranged.unqueue ready, fun u e => ?_, fun _ e => moveTo_ne _ _ e⟩
    rw [e, moveTo_self]
    exact away_held
  fits p := by rw [Machine.unqueue, State.updQueue_port]; exact h.dispatcher.fits p
  urgent p := ((State.urgencyLaw_iff.1 h.urgency p).mono fun _ => False.elim).of_frame (unqueue_frame t s)
    (by rw [(unqueue_frame t s).urgency, Machine.unqueue, State.next_congr (State.updQueue_port ..)]) fun u r _ => r
  affinity p u hp := by
    rw [Machine.unqueue, State.updQueue_port, State.updQueue_isIncoming] at hp
    exact h.affinity p u hp
  records u _ := (h.records u).congr .rfl rfl .rfl fun d _ => by simp only [State.Leaving, Machine.unqueue, State.updQueue_port]
  books := (unqueue_frame t s).booksKept.books h.books

/-! ### Becoming READY -/

theorem place_states {s : State} {t : Slot} (h : s.DispatcherLaw) (ready : s.states t = .ready) :
    (place t s).states t = .ready ∨ (place t s).states t = .selected := by
  rcases (place_dispatches h ready).moved t with e | ⟨-, now⟩
  · exact .inl (e.trans ready)
  · exact now

theorem readyTail_states {s : State} {t : Slot} (h : s.DispatcherBut t) :
    (readyTail t s).states t = .ready ∨ (readyTail t s).states t = .selected :=
  place_states h.enterTail (by rw [enterTail_states, moveTo_self])

theorem readyHead_states {s : State} {t : Slot} (h : s.DispatcherBut t) :
    (readyHead t s).states t = .ready ∨ (readyHead t s).states t = .selected :=
  place_states h.enterHead (by rw [enterHead_states, moveTo_self])

/-- A task with no wait that has become READY, and that may have been placed, is out of limbo. -/
theorem State.Limbo.ready (h : s.Limbo (· = t) away) (wait : (s.task t).wait = none) (doomed : (s.task t).doomed = false)
    (work : Dispatches (· = t) s s') (states : s'.states t = .ready ∨ s'.states t = .selected) (d : s'.DispatcherLaw)
    (u : s'.UrgencyLaw) : s'.Sound away where
  ports p := (work.frame.port p).lawful (h.ports p)
  dispatcher := d
  urgency := u
  affinity := work.affinityLaw h.affinity
  records x := by
    by_cases e : x = t
    · subst e
      have nowhere (p : Port) : (s'.port p).occ.occupant ≠ some x := (work.frame.port p).occupant ▸ h.not_occupant rfl p
      refine ⟨iff_of_false (by simp [work.frame.wait, wait]) ?_, iff_of_false (by simp [work.frame.doomed, doomed]) ?_⟩
      · rintro (k | ⟨p, o, -⟩)
        · rw [k] at states; simp at states
        · exact nowhere p o
      · rintro ⟨p, o, -⟩
        exact nowhere p o
    · exact work.recordLaw (fun k => absurd k e) (h.records x e)
  books := work.frame.booksKept.books h.books

theorem State.Limbo.readyTail (h : s.Limbo (· = t) away) (wait : (s.task t).wait = none) (doomed : (s.task t).doomed = false) :
    (readyTail t s).Sound away :=
  h.ready wait doomed (readyTail_dispatches h.dispatcherBut) (readyTail_states h.dispatcherBut)
    (readyTail_dispatcher h.dispatcherBut) (readyTail_urgent h.dispatcherBut h.urgent)

theorem State.Limbo.readyHead (h : s.Limbo (· = t) away) (wait : (s.task t).wait = none) (doomed : (s.task t).doomed = false) :
    (readyHead t s).Sound away :=
  h.ready wait doomed (readyHead_dispatches h.dispatcherBut) (readyHead_states h.dispatcherBut)
    (readyHead_dispatcher h.dispatcherBut) (readyHead_urgent h.dispatcherBut h.urgent)

/-! ### Re-decision -/

/-- All the laws of `State.Sound` but for one port, whose occupant, disposition or next has changed and which is about to be
re-decided. -/
structure State.Revising (s : State) (p : Port) (away : Slot → Prop) : Prop where
  ports : ∀ q, (s.port q).Lawful
  redeciding : s.Redeciding p false s.states
  urgent : ∀ q, p ≠ q → s.UrgentOn q Nobody
  affinity : s.AffinityLaw
  records : ∀ u, s.RecordLaw u
  books : s.Books away

theorem State.Sound.revising (h : s.Sound away) (p : Port) : s.Revising p away where
  ports := h.ports
  redeciding := ⟨h.dispatcher.arranged, fun _ => .inl rfl, fun q _ => h.dispatcher.fits q, (h.dispatcher.fits p).quiet,
    (h.dispatcher.fits p).continues, (h.dispatcher.fits p).redecidable⟩
  urgent q _ := State.urgencyLaw_iff.1 h.urgency q
  affinity := h.affinity
  records := h.records
  books := h.books

theorem State.Revising.redecide {p : Port} (h : s.Revising p away) : (redecide p false s).Sound away := by
  obtain ⟨d, work, u⟩ := redecide_dispatcher h.redeciding
  exact ⟨fun q => (work.frame.port q).lawful (h.ports q), d, u h.urgent, work.affinityLaw h.affinity,
    fun t => work.recordLaw False.elim (h.records t), work.frame.booksKept.books h.books⟩

/-- A task that is no next of the port does not count there. -/
theorem State.urgency_next {p : Port} (next : s'.next p = s.next p) (priority : ∀ y, s.next p = some y →
    (s'.task y).priority = (s.task y).priority) : s'.urgency (s'.next p) = s.urgency (s.next p) := by
  rw [next]
  cases n : s.next p with
  | none => rfl
  | some y => simp only [State.urgency, priority y n]

/-- An occupant is the next of no other port. -/
theorem State.DispatcherLaw.occupant_not_next (h : s.DispatcherLaw) {p q : Port} (o : (s.port p).occ.occupant = some t)
    (ne : p ≠ q) : s.next q ≠ some t := fun e => by
  rcases State.next_cases (h.fits q).continues e with o' | i
  · exact ne (h.arranged.oneOccupied t p q o o')
  · have running := (h.arranged.occupants t).2 ⟨p, o⟩
    rw [(h.arranged.incomings t).2 ⟨q, i t rfl⟩] at running
    cases running

/-- Nor is an incoming. -/
theorem State.DispatcherLaw.incoming_not_next (h : s.DispatcherLaw) {p q : Port} (i : s.isIncoming p t = true)
    (ne : p ≠ q) : s.next q ≠ some t := fun e => by
  rcases State.next_cases (h.fits q).continues e with o | i'
  · have running := (h.arranged.occupants t).2 ⟨q, o⟩
    rw [(h.arranged.incomings t).2 ⟨p, i⟩] at running
    cases running
  · exact ne (h.arranged.oneIncoming t p q i (i' t rfl))

/-- A port is about to be re-decided when its disposition has changed, or the record of its occupant or incoming has, the
objects with it; what the record says of waits and doom fits what has changed. -/
theorem State.Sound.revise (h : s.Sound away) {p : Port} {x : Slot} {d : Option Disposition}
    (port : s'.port p = { s.port p with occ := { (s.port p).occ with disposition := d } })
    (others : ∀ q, p ≠ q → s'.port q = s.port q) (queue : ∀ l, s'.queue l = s.queue l)
    (task : ∀ u, u ≠ x → s'.task u = s.task u) (state : s'.states x = s.states x)
    (affinity : (s'.task x).affinity = (s.task x).affinity) (not_ready : s.states x ≠ .ready)
    (next : ∀ q, p ≠ q → s.next q ≠ some x) (whose : d = (s.port p).occ.disposition ∨ (s.port p).occ.occupant = some x)
    (redecidable : Occupancy.Redecidable { (s.port p).occ with disposition := d }) (record : s'.RecordLaw x)
    (books : s'.Books away') : s'.Revising p away' := by
  have occupant (q : Port) : (s'.port q).occ.occupant = (s.port q).occ.occupant := by
    by_cases e : p = q
    · rw [← e, port]
    · rw [others q e]
  have offer (q : Port) : (s'.port q).occ.offer = (s.port q).occ.offer := by
    by_cases e : p = q
    · rw [← e, port]
    · rw [others q e]
  have states : s'.states = s.states := by
    funext u
    by_cases e : u = x
    · rw [e, state]
    · rw [State.states, State.states, task u e]
  have quiet : (s'.port p).QuietWhenDisabled := by
    rw [port]
    intro e
    obtain ⟨o, f, k⟩ := (h.dispatcher.fits p).quiet e
    refine ⟨o, f, ?_⟩
    rcases whose with same | occupied
    · exact same.trans k
    · rw [o] at occupied; cases occupied
  refine ⟨fun q => ?_, ⟨?_, fun _ => .inl rfl, fun q e => ?_, quiet, ?_, ?_⟩, fun q e u r _ k => ?_, fun q u hp => ?_, fun u => ?_, books⟩
  · by_cases e : p = q
    · subst e
      obtain ⟨bounded, -, reset, sequence⟩ := h.ports p
      exact ⟨by rw [port]; exact bounded, quiet, by rw [port]; exact reset, by rw [port]; exact sequence⟩
    · rw [others q e]; exact h.ports q
  · rw [states]
    refine h.dispatcher.arranged.reprioritised queue (fun u r => ?_) occupant offer
    rw [task u]
    rintro rfl
    exact not_ready r
  · rw [others q e]; exact h.dispatcher.fits q
  · rw [port]; exact (h.dispatcher.fits p).continues
  · rw [port]; exact redecidable
  · rw [states] at r
    have ne : u ≠ x := by rintro rfl; exact not_ready r
    rw [State.urgency_next (State.next_congr (others q e)) fun y n => by rw [task y]; rintro rfl; exact next q e n,
      State.urgency, task u ne]
    refine State.urgencyLaw_iff.1 h.urgency q u r id ?_
    simpa only [State.eligible, task u ne, others q e] using k
  · have same : (s'.task u).affinity = (s.task u).affinity := by
      by_cases e : u = x
      · rw [e, affinity]
      · rw [task u e]
    rw [same]
    refine h.affinity q u ?_
    simpa only [State.isIncoming, occupant, offer] using hp
  · by_cases e : u = x
    · exact e ▸ record
    · refine (h.records u).congr (by rw [task u e]) (by rw [task u e]) (by rw [states]) fun k _ => exists_congr fun q => ?_
      by_cases e' : p = q
      · subst e'
        rw [port]
        rcases whose with same | occupied
        · rw [same]
        · exact and_congr_right fun o => absurd (Option.some.inj (o.symm.trans occupied)) e
      · rw [others q e']

/-- Where the port fits and its next is urgent enough, all the laws hold without a re-decision. -/
theorem State.Revising.sound {p : Port} (h : s.Revising p away) (fits : (s.port p).Fits) (urgent : s.UrgentOn p Nobody) :
    s.Sound away where
  ports := h.ports
  dispatcher := State.dispatcherLaw_iff.2 ⟨h.redeciding.arranged, fun q => by
    by_cases e : p = q
    · exact e ▸ fits
    · exact h.redeciding.others q e⟩
  urgency := State.urgencyLaw_iff.2 fun q => by
    by_cases e : p = q
    · exact e ▸ urgent
    · exact h.urgent q e
  affinity := h.affinity
  records := h.records
  books := h.books

end

end Sys2Proof.Machine

/-! ## The end of a wait keeps the laws (R9) -/

namespace Sys2Proof.Machine

section
variable {s s' : State} {away away' : Slot → Prop} {t : Slot} {p : Port}

/-! ### Leaving occupants -/

/-- A disposition other than STAY stands in a SWITCH offer, and for a task (R45, R49). -/
theorem PortRecord.Fits.switch {r : PortRecord} (h : r.Fits) {d : Disposition} (e : r.occ.disposition = some d) (ne : d ≠ .stay) :
    (∃ f, r.occ.offer = some f ∧ f.kind = .switchTask) ∧ r.occ.occupant ≠ none := by
  obtain ⟨offered, occupied⟩ := h.disposition.1.1 (by rw [e]; rfl)
  obtain ⟨f, hf⟩ := Option.isSome_iff_exists.1 offered
  refine ⟨⟨f, hf, ?_⟩, fun o => by rw [o] at occupied; cases occupied⟩
  cases k : f.kind with
  | switchTask => rfl
  | continueTask =>
    have stays := (h.disposition.2 f hf).2 ⟨k, occupied⟩
    rw [e] at stays
    exact absurd (Option.some.inj stays) ne

/-- In a SWITCH offer an occupant may take any disposition but STAY. -/
theorem PortRecord.redecidable_switch {r : PortRecord} {f : Offer} (o : r.occ.offer = some f) (k : f.kind = .switchTask)
    (occupied : r.occ.occupant ≠ none) {d : Disposition} (ne : d ≠ .stay) :
    Occupancy.Redecidable { r.occ with disposition := some d } where
  idle e := absurd e occupied
  settled e := absurd (o.symm.trans e) (by simp)
  switching _ _ _ _ := ⟨by simp, by simpa using ne⟩
  continuing g hg kg := by
    rw [show g = f from Option.some.inj (hg.symm.trans o), k] at kg
    cases kg

theorem State.DispatcherLaw.states_occupant (h : s.DispatcherLaw) (o : (s.port p).occ.occupant = some t) :
    s.states t = .running := (h.arranged.occupants t).2 ⟨p, o⟩

/-- The port of an occupant. -/
theorem State.DispatcherLaw.portOfOccupant (h : s.DispatcherLaw) (o : (s.port p).occ.occupant = some t) :
    s.portOfOccupant t = some p :=
  portOfOccupant_of_occupies ⟨o, fun o' => by
    have := h.arranged.oneOccupied t p (otherPort p) o o'
    cases p <;> cases this⟩

/-- A task that is no departing occupant with FREE is not doomed. -/
theorem State.RecordLaw.not_doomed (h : s.RecordLaw t) (no : ¬s.Leaving .free t) : (s.task t).doomed = false :=
  Bool.not_eq_true _ ▸ fun e => no (h.doomed.1 e)

theorem State.Sound.not_leaving (h : s.Sound away) (ne : s.states t ≠ .running) (d : Disposition) : ¬s.Leaving d t :=
  fun ⟨_, o, _⟩ => ne (h.dispatcher.states_occupant o)

/-- The departing occupant of a port leaves it alone. -/
theorem State.DispatcherLaw.leaving_iff (h : s.DispatcherLaw) (o : (s.port p).occ.occupant = some t) (d : Disposition) :
    s.Leaving d t ↔ (s.port p).occ.disposition = some d := by
  refine ⟨?_, fun e => ⟨p, o, e⟩⟩
  rintro ⟨q, o', e⟩
  rw [h.arranged.oneOccupied t p q o o']
  exact e

/-- The wait and the doom of an occupant are told by its disposition. -/
theorem State.DispatcherLaw.occupant_record (h : s.DispatcherLaw) (o : (s.port p).occ.occupant = some t) (r : s.RecordLaw t) :
    ((s.task t).wait.isSome ↔ (s.port p).occ.disposition = some .wait) ∧
      ((s.task t).doomed = true ↔ (s.port p).occ.disposition = some .free) := by
  have running := h.states_occupant o
  refine ⟨?_, ?_⟩
  · rw [r.waiting, running, h.leaving_iff o]
    simp
  · rw [r.doomed, h.leaving_iff o]

/-- The incoming of a SWITCH offer does not wait and is not doomed. -/
theorem State.DispatcherLaw.incoming_record (h : s.DispatcherLaw) (i : s.isIncoming p t = true) (r : s.RecordLaw t) :
    (s.task t).wait = none ∧ (s.task t).doomed = false := by
  have selected : s.states t = .selected := (h.arranged.incomings t).2 ⟨p, i⟩
  have no_leave (d : Disposition) : ¬s.Leaving d t := fun ⟨q, o, _⟩ => by
    rw [h.states_occupant o] at selected; cases selected
  refine ⟨?_, r.not_doomed (no_leave _)⟩
  by_contra waits
  rcases r.waiting.1 (Option.isSome_iff_ne_none.2 waits) with e | l
  · rw [selected] at e; cases e
  · exact no_leave _ l

/-- The new disposition of an occupant says how it leaves. -/
theorem State.DispatcherLaw.leaving_revised (h : s.DispatcherLaw) (o : (s.port p).occ.occupant = some t) {d : Option Disposition}
    (port : s'.port p = { s.port p with occ := { (s.port p).occ with disposition := d } })
    (others : ∀ q, p ≠ q → s'.port q = s.port q) (k : Disposition) : s'.Leaving k t ↔ d = some k := by
  constructor
  · rintro ⟨q, o', e⟩
    by_cases ne : p = q
    · subst ne
      rw [port] at e
      exact e
    · rw [others q ne] at o'
      exact absurd (h.arranged.oneOccupied t p q o o') ne
  · intro e
    exact ⟨p, by rw [port]; exact o, by rw [port]; exact e⟩

/-! ### The end of a wait -/

/-- The end of a wait after the record and the lists: no object and no wait record is touched. -/
theorem settleWaiter_booksKept (t : Slot) (s : State) : BooksKept s (settleWaiter t s) := by
  unfold settleWaiter
  simp only
  split
  · split
    · exact BooksKept.updTask rfl (fun e => by cases e)
    · exact (readyTail_frame t s).booksKept
  · split
    · exact .refl s
    · split
      · split
        · exact ((BooksKept.updTask (f := fun r => { r with holdFlag := false, holdCause := some .command }) rfl id).trans
            (.setDisposition _ _ _)).trans (redecide_frame _ _ _).booksKept
        · exact (BooksKept.setDisposition _ _ _).trans (redecide_frame _ _ _).booksKept
      · exact .refl s
  all_goals exact .refl s

/-- The record and the lists at the end of a wait. -/
def State.waitEnded (s : State) (t : Slot) (d : Delivery) : State :=
  (leaveWait t s).updTask t fun r => { r with wait := none, delivery := some d }

theorem endWait_eq (t : Slot) (d : Delivery) (s : State) : endWait t d s = settleWaiter t (s.waitEnded t d) := rfl

theorem State.waitEnded_port (s : State) (t : Slot) (d : Delivery) (p : Port) : (s.waitEnded t d).port p = s.port p := by
  simp [State.waitEnded]

theorem State.waitEnded_task (s : State) (t : Slot) (d : Delivery) :
    (s.waitEnded t d).task t = { s.task t with wait := none, delivery := some d } := by
  simp [State.waitEnded]

theorem State.waitEnded_task_ne (s : State) {t u : Slot} (d : Delivery) (h : u ≠ t) : (s.waitEnded t d).task u = s.task u := by
  simp [State.waitEnded, State.updTask_task_ne _ _ h.symm]

theorem State.waitEnded_queue (s : State) (t : Slot) (d : Delivery) (l : Fin 32) : (s.waitEnded t d).queue l = s.queue l :=
  leaveWait_queue t s l

theorem State.Books.waitEnded (h : s.Books away) (out : ∀ u, away' u ↔ away u ∧ u ≠ t) (d : Delivery) :
    (s.waitEnded t d).Books away' :=
  h.dropWait rfl id fun u ne => (out u).trans (and_iff_left ne)

/-- The end of the wait of a WAITING task. -/
theorem endWait_waiting_sound (h : s.Sound away) (waiting : s.states t = .waiting) (out : ∀ u, away' u ↔ away u ∧ u ≠ t)
    (d : Delivery) : (endWait t d s).Sound away' := by
  have outside : (s.states t).Away := by rw [waiting]; simp [TaskState.Away]
  have limbo : (s.waitEnded t d).Limbo (· = t) away' :=
    (h.limbo outside).change (s.waitEnded_port t d) (s.waitEnded_queue t d) (fun u ne => s.waitEnded_task_ne d ne)
      (h.books.waitEnded out d)
  have task := s.waitEnded_task t d
  have doomed : ((s.waitEnded t d).task t).doomed = false := by
    rw [task]
    exact (h.records t).not_doomed (h.not_leaving (by rw [waiting]; simp) _)
  have state : ((s.waitEnded t d).task t).state = .waiting := by rw [task]; exact waiting
  rw [endWait_eq, settleWaiter_waiting state]
  split
  · have held : (becomeHeld t (s.waitEnded t d)).Limbo (· = t) away' :=
      limbo.updTask rfl ((BooksKept.updTask rfl fun e => by cases e).books limbo.books)
    have held_task : (becomeHeld t (s.waitEnded t d)).task t =
        { (s.waitEnded t d).task t with state := .held, holdFlag := false, holdCause := some .command } :=
      State.updTask_task_self ..
    refine held.sound ?_ (held.recordLaw rfl ?_ ?_)
    · rw [State.states, held_task]; exact away_held
    · rw [State.states, held_task, task]; simp
    · rw [held_task]; exact doomed
  · exact limbo.readyTail (by rw [task]) doomed

/-- The end of the wait of a departing occupant. -/
theorem endWait_departing_sound (h : s.Sound away) (o : (s.port p).occ.occupant = some t)
    (departs : (s.port p).occ.disposition = some .wait) (out : ∀ u, away' u ↔ away u ∧ u ≠ t) (d : Delivery) :
    (endWait t d s).Sound away' := by
  have task := s.waitEnded_task t d
  have running := h.dispatcher.states_occupant o
  obtain ⟨⟨f, hf, switch⟩, occupied⟩ := (h.dispatcher.fits p).switch departs (by simp)
  have occupies : (s.waitEnded t d).portOfOccupant t = some p := by
    have same : (s.waitEnded t d).portOfOccupant t = s.portOfOccupant t := by
      have (q : Port) := s.waitEnded_port t d q
      simp only [State.portOfOccupant, show (s.waitEnded t d).portA = s.portA from this .A,
        show (s.waitEnded t d).portB = s.portB from this .B]
    rw [same]
    exact h.dispatcher.portOfOccupant o
  rw [endWait_eq, settleWaiter_departing (by rw [task]; exact running) occupies (by rw [State.waitEnded_port]; exact departs)]
  have revise {g : TaskRecord → TaskRecord} {e : Disposition} (state : ∀ r, (g r).state = r.state)
      (affinity : ∀ r, (g r).affinity = r.affinity) (wait : ∀ r, (g r).wait = r.wait) (doomed : ∀ r, (g r).doomed = r.doomed)
      (stay : e ≠ .stay) (not_wait : e ≠ .wait) (not_free : e ≠ .free) :
      (redecide p false (((s.waitEnded t d).updTask t g).setDisposition p e)).Sound away' := by
    have port (q : Port) : (((s.waitEnded t d).updTask t g).setDisposition p e).port q =
        if p = q then { s.port p with occ := { (s.port p).occ with disposition := some e } } else s.port q := by
      rw [State.setDisposition_port]
      simp only [State.updTask_port, State.waitEnded_port]
    have here := (port p).trans (if_pos rfl)
    have there (q : Port) (ne : p ≠ q) := (port q).trans (if_neg ne)
    have leaving := h.dispatcher.leaving_revised o here there
    have self : (((s.waitEnded t d).updTask t g).setDisposition p e).task t = g ((s.waitEnded t d).task t) := by simp
    have same : (((s.waitEnded t d).updTask t g).setDisposition p e).states t = s.states t := by
      rw [State.states, self, state, task]; rfl
    refine (h.revise here there (fun l => by simpa using s.waitEnded_queue t d l) (fun u ne => ?_) same ?_
      (by rw [running]; simp) (fun q ne => h.dispatcher.occupant_not_next o ne) (.inr o)
      (PortRecord.redecidable_switch hf switch occupied stay) ⟨?_, ?_⟩
      (((BooksKept.updTask (wait _) fun k => state _ ▸ k).trans (.setDisposition _ _ _)).books
        (h.books.waitEnded out d))).redecide
    · simp [State.updTask_task_ne _ _ ne.symm, s.waitEnded_task_ne d ne]
    · rw [self, affinity, task]
    · rw [self, wait, task, same, running, leaving]
      simp [not_wait]
    · rw [self, doomed, task, leaving]
      refine iff_of_false (Bool.not_eq_true _ ▸ (h.records t).not_doomed ?_) (by simpa using not_free)
      rw [h.dispatcher.leaving_iff o, departs]
      simp
  split
  · exact revise (fun _ => rfl) (fun _ => rfl) (fun _ => rfl) (fun _ => rfl) (by simp) (by simp) (by simp)
  · have none_changed : (s.waitEnded t d).updTask t id = s.waitEnded t d := by
      simp [State.updTask, State.task]
    have := revise (g := id) (e := .readyTail) (fun _ => rfl) (fun _ => rfl) (fun _ => rfl) (fun _ => rfl) (by simp) (by simp) (by simp)
    rwa [none_changed] at this

/-- The end of a wait keeps the laws, and brings a task that was away from its list back. -/
theorem endWait_sound (h : s.Sound away) (waits : (s.task t).wait.isSome) (out : ∀ u, away' u ↔ away u ∧ u ≠ t) (d : Delivery) :
    (endWait t d s).Sound away' := by
  rcases (h.records t).waiting.1 waits with waiting | ⟨p, o, departs⟩
  · exact endWait_waiting_sound h waiting out d
  · exact endWait_departing_sound h o departs out d

/-! ### What the end of a wait leaves -/

theorem endWait_wait (t : Slot) (d : Delivery) (s : State) (u : Slot) :
    ((endWait t d s).task u).wait = if u = t then none else (s.task u).wait := by
  rw [endWait_eq, (settleWaiter_booksKept t _).wait]
  split
  · next e => rw [e, State.waitEnded_task]
  · next e => rw [s.waitEnded_task_ne d e]

theorem leaveWait_waitQueue (t : Slot) (s : State) :
    (leaveWait t s).pool.waitQueue = s.pool.waitQueue.erase t ∨ (leaveWait t s).pool.waitQueue = s.pool.waitQueue := by
  unfold leaveWait
  cases (s.task t).wait with
  | none => exact .inr rfl
  | some w =>
    by_cases e : w.kind.list = some .pages
    · exact .inl (leaveList_entries_self t s e)
    · exact .inr (leaveList_entries_ne t s e)

/-- A head that is blocked stays so when the pool keeps its runs and the head its place. -/
theorem State.HeadBlocked.congr (h : s.HeadBlocked) (pool : s'.pool = { s.pool with waitQueue := s'.pool.waitQueue })
    (head : ∀ u, s'.pool.waitQueue.head? = some u → s.pool.waitQueue.head? = some u ∧ (s'.task u).wait = (s.task u).wait) :
    s'.HeadBlocked := by
  intro u hu
  obtain ⟨was, wait⟩ := head u hu
  have same : s'.askedPages u = s.askedPages u := by simp only [State.askedPages, wait]
  rw [pool, same]
  exact h u was

theorem State.HeadBlocked.leave (h : s.HeadBlocked) (not_head : s.isPageHead t = false)
    (pool : s'.pool = { s.pool with waitQueue := (leaveWait t s).pool.waitQueue })
    (wait : ∀ u, u ≠ t → (s'.task u).wait = (s.task u).wait) : s'.HeadBlocked := by
  have ne : s.pool.waitQueue.head? ≠ some t := by simpa [State.isPageHead] using not_head
  refine h.congr (by rw [pool]) fun u hu => ?_
  have queue : s'.pool.waitQueue = (leaveWait t s).pool.waitQueue := by rw [pool]
  have was : s.pool.waitQueue.head? = some u := by
    rw [queue] at hu
    rcases leaveWait_waitQueue t s with e | e
    · rw [e] at hu
      cases q : s.pool.waitQueue with
      | nil => rw [q] at hu; cases hu
      | cons v rest =>
        rw [q] at ne hu
        rw [List.erase_cons_tail (by simpa using ne)] at hu
        exact hu
    · rwa [e] at hu
  exact ⟨was, wait u (by rintro rfl; exact ne was)⟩

theorem endWait_pool (t : Slot) (d : Delivery) (s : State) :
    (endWait t d s).pool = { s.pool with waitQueue := (leaveWait t s).pool.waitQueue } := by
  rw [endWait_eq, (settleWaiter_booksKept t _).pool]
  exact (leaveWait_frame t s).pool

/-- The end of a wait of a task that is not at the head of the page-wait queue leaves nothing to be served. -/
theorem State.Rested.endWait (h : s.Rested) (not_head : s.isPageHead t = false) (d : Delivery) : (endWait t d s).Rested where
  exchanges := (endWait_frame t d s).objects.exchangesLawful h.exchanges
  timerOrder := (endWait_frame t d s).objects.timerOrder h.timerOrder
  headBlocked := h.headBlocked.leave not_head (endWait_pool t d s) fun u ne => by rw [endWait_wait, if_neg ne]

/-- A task that waits for something else than pages is not at the head of the page-wait queue. -/
theorem State.ListsFit.not_isPageHead (h : s.ListsFit away) (no : ¬s.waitsIn t .pages) : s.isPageHead t = false := by
  refine Bool.eq_false_iff.2 fun e => no ?_
  have head : s.pool.waitQueue.head? = some t := by simpa [State.isPageHead] using e
  exact ((h.mem .pages t).1 (List.mem_of_mem_head? head)).2

/-- The waits of tasks one after the other. -/
theorem endWaits_sound (d : Delivery) : ∀ (ts : List Slot) {s : State} {away away' : Slot → Prop}, s.Sound away → s.Rested →
    ts.Nodup → (∀ t ∈ ts, (s.task t).wait.isSome ∧ ¬s.waitsIn t .pages) → (∀ u, away' u ↔ away u ∧ u ∉ ts) →
    (endWaits ts d s).Sound away' ∧ (endWaits ts d s).Rested := by
  intro ts
  induction ts with
  | nil =>
    intro s away away' h r _ _ out
    obtain rfl : away' = away := funext fun u => propext ((out u).trans (by simp))
    exact ⟨h, r⟩
  | cons t ts ih =>
    intro s away away' h r nodup waits out
    obtain ⟨not_mem, nodup⟩ := List.nodup_cons.1 nodup
    obtain ⟨wait, no_pages⟩ := waits t List.mem_cons_self
    refine ih (away := fun u => away u ∧ u ≠ t) (endWait_sound h wait (fun _ => .rfl) d)
      (r.endWait (h.books.lists.not_isPageHead no_pages) d) nodup (fun u hu => ?_) fun u => ?_
    · have ne : u ≠ t := fun e => not_mem (e ▸ hu)
      simp only [State.waitsIn, endWait_wait, if_neg ne]
      exact waits u (List.mem_cons_of_mem _ hu)
    · rw [out, List.mem_cons, not_or, and_assoc]

end

end Sys2Proof.Machine

/-! ## The law of the Page Pool (R144, R145, R148, R153) -/

namespace Sys2Proof.Machine

/-- The law of the pool by itself: which tasks may own a run is told from outside. -/
structure PagePool.Fits (p : PagePool) (live : Slot → Prop) : Prop where
  low : 1 ≤ p.size
  high : p.size ≤ 128
  map : ∀ (k : Fin 128) (e : Fin 64), p.pageMap[k] = some e ↔ p.Covers e k.val
  runs : ∀ (e : Fin 64) r, p.runs[e] = some r →
    1 ≤ r.length ∧ r.length ≤ 32 ∧ r.first + r.length ≤ p.size ∧ live r.owner
  free : p.freePages + ∑ e, p.lengthAt e = p.size

section
variable {p q : PagePool} {live : Slot → Prop}

theorem PagePool.sum_runList (p : PagePool) : (p.runList.map (·.length)).sum = ∑ e, p.lengthAt e := by
  have key (es : List (Fin 64)) :
      ((es.filterMap fun e => p.runs[e]).map (·.length)).sum = (es.map p.lengthAt).sum := by
    induction es with
    | nil => rfl
    | cons e es ih =>
      have head : p.lengthAt e = p.runs[e].elim 0 Run.length := rfl
      cases h : p.runs[e] with
      | none => rw [List.filterMap_cons, h, ih, List.map_cons, List.sum_cons, head, h, Option.elim_none, Nat.zero_add]
      | some r => rw [List.filterMap_cons, h, List.map_cons, List.sum_cons, ih, List.map_cons, List.sum_cons, head, h]; rfl
  rw [PagePool.runList_eq, key, ← List.ofFn_eq_map, List.sum_ofFn]

theorem PagePool.entryOf_fin (p : PagePool) (k : Fin 128) : p.entryOf k.val = p.pageMap[k] := dif_pos k.isLt

theorem State.poolLaw_iff {s : State} : s.PoolLaw ↔ s.pool.Fits fun t => s.states t ≠ .free := by
  simp only [State.PoolLaw, PagePool.entryOf_fin, PagePool.sum_runList]
  exact ⟨fun ⟨a, b, c, d, e⟩ => ⟨a, b, c, d, e⟩, fun ⟨a, b, c, d, e⟩ => ⟨a, b, c, d, e⟩⟩

/-- A page that is free is in no run. -/
theorem PagePool.Fits.not_covers (h : p.Fits live) {k : Nat} (free : p.isFree k = true) (e : Fin 64) : ¬p.Covers e k := by
  unfold PagePool.isFree at free
  split at free
  · next lt =>
    rw [Bool.and_eq_true, Option.isNone_iff_eq_none] at free
    intro covers
    have := (h.map ⟨k, lt⟩ e).2 covers
    simp [free.2] at this
  · cases free

theorem PagePool.isFree_lt {k : Nat} (free : p.isFree k = true) : k < p.size := by
  unfold PagePool.isFree at free
  split at free
  · rw [Bool.and_eq_true, decide_eq_true_eq] at free
    exact free.1
  · cases free

/-- The pages of the run of an entry. -/
def PagePool.pagesOf (p : PagePool) (e : Fin 64) : Finset Nat := p.runs[e].elim ∅ fun r => Finset.Ico r.first (r.first + r.length)

theorem PagePool.mem_pagesOf {e : Fin 64} {k : Nat} : k ∈ p.pagesOf e ↔ p.Covers e k := by
  unfold PagePool.pagesOf PagePool.Covers
  cases p.runs[e] <;> simp

theorem PagePool.card_pagesOf (p : PagePool) (e : Fin 64) : (p.pagesOf e).card = p.lengthAt e := by
  unfold PagePool.pagesOf PagePool.lengthAt
  cases p.runs[e] <;> simp

/-- Free pages in a row are no more than the free number says: the runs and they lie apart in the pool. -/
theorem PagePool.Fits.le_freePages (h : p.Fits live) {k n : Nat} (free : ∀ i < n, p.isFree (k + i) = true) :
    n ≤ p.freePages := by
  have apart (e f : Fin 64) (ne : e ≠ f) : Disjoint (p.pagesOf e) (p.pagesOf f) := by
    refine Finset.disjoint_left.2 fun i hi hj => ne ?_
    rw [PagePool.mem_pagesOf] at hi hj
    have lt : i < 128 := by
      obtain ⟨r, hr, -, lt⟩ := hi
      have := (h.runs e r hr).2.2.1
      have := h.high
      omega
    exact Option.some.inj (((h.map ⟨i, lt⟩ e).2 hi).symm.trans ((h.map ⟨i, lt⟩ f).2 hj))
  have fresh : Disjoint (Finset.univ.biUnion p.pagesOf) (Finset.Ico k (k + n)) := by
    refine Finset.disjoint_left.2 fun i hi hj => ?_
    obtain ⟨e, -, he⟩ := Finset.mem_biUnion.1 hi
    rw [Finset.mem_Ico] at hj
    have := free (i - k) (by omega)
    rw [show k + (i - k) = i by omega] at this
    exact h.not_covers this e (PagePool.mem_pagesOf.1 he)
  have inside : Finset.univ.biUnion p.pagesOf ∪ Finset.Ico k (k + n) ⊆ Finset.range p.size := by
    intro i hi
    rw [Finset.mem_range]
    rcases Finset.mem_union.1 hi with hi | hi
    · obtain ⟨e, -, he⟩ := Finset.mem_biUnion.1 hi
      obtain ⟨r, hr, -, lt⟩ := PagePool.mem_pagesOf.1 he
      have := (h.runs e r hr).2.2.1
      omega
    · rw [Finset.mem_Ico] at hi
      have := PagePool.isFree_lt (free (i - k) (by omega))
      omega
  have count := Finset.card_le_card inside
  rw [Finset.card_union_of_disjoint fresh, Finset.card_biUnion fun e _ f _ => apart e f,
    Finset.card_range, Nat.card_Ico] at count
  simp only [PagePool.card_pagesOf] at count
  have := h.free
  omega

/-- What a grant is made of (R148): a free entry and pages in a row that are free. -/
theorem PagePool.grantFor_eq_some {n : Nat} {e : Fin 64} {k : Nat} (h : p.grantFor n = some (e, k)) :
    p.runs[e] = none ∧ ∀ i < n, p.isFree (k + i) = true := by
  unfold PagePool.grantFor at h
  split at h
  · next e' k' entry first =>
    obtain ⟨rfl, rfl⟩ : e' = e ∧ k' = k := by simpa using h
    constructor
    · simpa using List.find?_some entry
    · simpa using List.find?_some first
  · cases h

theorem PagePool.createRun_runs (p : PagePool) (e f : Fin 64) (first n : Nat) (t : Slot) :
    (p.createRun e first n t).runs[f] = if e = f then some ⟨first, n, t⟩ else p.runs[f] := by
  simp only [PagePool.createRun, Fin.getElem_fin, Vector.getElem_set, Fin.ext_iff]

theorem PagePool.createRun_pageMap (p : PagePool) (e : Fin 64) (first n : Nat) (t : Slot) (k : Fin 128) :
    (p.createRun e first n t).pageMap[k] = if first ≤ k.val ∧ k.val < first + n then some e else p.pageMap[k] := by
  simp only [PagePool.createRun, Fin.getElem_fin, Vector.getElem_ofFn]

theorem PagePool.createRun_covers_ne {e f : Fin 64} (ne : e ≠ f) (first n : Nat) (t : Slot) (k : Nat) :
    (p.createRun e first n t).Covers f k ↔ p.Covers f k := by
  simp only [PagePool.Covers, PagePool.createRun_runs, if_neg ne]

theorem PagePool.createRun_covers_self (e : Fin 64) (first n : Nat) (t : Slot) (k : Nat) :
    (p.createRun e first n t).Covers e k ↔ first ≤ k ∧ k < first + n := by
  simp only [PagePool.Covers, PagePool.createRun_runs, if_true, Option.some.injEq, exists_eq_left']

/-- The sum of lengths where one entry changes. -/
theorem PagePool.sum_lengthAt {e : Fin 64} (others : ∀ f, e ≠ f → q.runs[f] = p.runs[f]) :
    ∑ f, q.lengthAt f + p.lengthAt e = ∑ f, p.lengthAt f + q.lengthAt e := by
  have hq := Finset.sum_erase_add Finset.univ q.lengthAt (Finset.mem_univ e)
  have hp := Finset.sum_erase_add Finset.univ p.lengthAt (Finset.mem_univ e)
  have same : ∑ f ∈ Finset.univ.erase e, q.lengthAt f = ∑ f ∈ Finset.univ.erase e, p.lengthAt f :=
    Finset.sum_congr rfl fun f hf => by
      simp only [PagePool.lengthAt, others f (Finset.ne_of_mem_erase hf).symm]
  omega

/-- A grant keeps the law (R148). -/
theorem PagePool.Fits.createRun (h : p.Fits live) {e : Fin 64} {k n : Nat} (grant : p.grantFor n = some (e, k)) (low : 1 ≤ n)
    (high : n ≤ 32) {t : Slot} (owner : live t) : (p.createRun e k n t).Fits live := by
  obtain ⟨entry, free⟩ := PagePool.grantFor_eq_some grant
  have none_there (i : Nat) : ¬p.Covers e i := fun ⟨r, hr, _⟩ => by rw [entry] at hr; cases hr
  refine ⟨by simpa using h.low, by simpa using h.high, fun i f => ?_, fun f r hr => ?_, ?_⟩
  · rw [PagePool.createRun_pageMap]
    by_cases same : e = f
    · subst same
      rw [PagePool.createRun_covers_self]
      split
      · next b => exact iff_of_true rfl b
      · next b => exact iff_of_false (fun k => none_there i.val ((h.map i e).1 k)) b
    · rw [PagePool.createRun_covers_ne same]
      split
      · next b =>
        refine iff_of_false (by simpa using same) ?_
        have := free (i.val - k) (by omega)
        rw [show k + (i.val - k) = i.val by omega] at this
        exact h.not_covers this f
      · exact h.map i f
  · rw [PagePool.createRun_runs] at hr
    split at hr
    · cases hr
      have := PagePool.isFree_lt (free (n - 1) (by omega))
      exact ⟨low, high, by simp only [PagePool.createRun_size]; omega, owner⟩
    · simpa only [PagePool.createRun_size] using h.runs f r hr
  · have sum := PagePool.sum_lengthAt (p := p) (q := p.createRun e k n t) (e := e) fun f ne => by
      rw [PagePool.createRun_runs, if_neg ne]
    have before : p.lengthAt e = 0 := by rw [PagePool.lengthAt, entry]; rfl
    have after : (p.createRun e k n t).lengthAt e = n := by rw [PagePool.lengthAt, PagePool.createRun_runs, if_pos rfl]; rfl
    have le := h.le_freePages free
    have := h.free
    have freed : (p.createRun e k n t).freePages = p.freePages - n := by unfold PagePool.createRun; rfl
    rw [PagePool.createRun_size, freed]
    omega

/-- The removal of a run keeps the law (R153). -/
theorem PagePool.Fits.removeRun (h : p.Fits live) (e : Fin 64) : (p.removeRun e).Fits live := by
  classical
  refine ⟨by simpa using h.low, by simpa using h.high, fun i f => ?_, fun f r hr => ?_, ?_⟩
  · rw [PagePool.removeRun_pageMap]
    by_cases same : e = f
    · subst same
      refine iff_of_false ?_ ?_
      · split
        · simp
        · next no => rw [h.map]; exact no
      · rintro ⟨r, hr, -⟩
        rw [PagePool.removeRun_runs, if_pos rfl] at hr
        cases hr
    · rw [PagePool.removeRun_covers same]
      split
      · next covers =>
        refine iff_of_false (by simp) fun other => same ?_
        exact Option.some.inj (((h.map i e).2 covers).symm.trans ((h.map i f).2 other))
      · exact h.map i f
  · rw [PagePool.removeRun_runs] at hr
    split at hr
    · cases hr
    · simpa using h.runs f r hr
  · have sum := PagePool.sum_lengthAt (p := p) (q := p.removeRun e) (e := e) fun f ne => by
      rw [PagePool.removeRun_runs, if_neg ne]
    have after : (p.removeRun e).lengthAt e = 0 := by rw [PagePool.lengthAt, PagePool.removeRun_runs, if_pos rfl]; rfl
    have := h.free
    rw [PagePool.removeRun_freePages, PagePool.removeRun_size]
    omega

theorem PagePool.Fits.mono {live' : Slot → Prop} (h : p.Fits live)
    (le : ∀ (e : Fin 64) r, p.runs[e] = some r → live r.owner → live' r.owner) : p.Fits live' where
  low := h.low
  high := h.high
  map := h.map
  runs e r hr := by
    obtain ⟨l₁, l₂, inside, owner⟩ := h.runs e r hr
    exact ⟨l₁, l₂, inside, le e r hr owner⟩
  free := h.free

/-- The release of a task's runs keeps the law, and the task then owns none (R156). -/
theorem PagePool.Fits.releaseRuns (h : p.Fits live) (t : Slot) : (p.releaseRuns t).Fits fun u => live u ∧ u ≠ t := by
  have kept : (p.releaseRuns t).Fits live := by
    unfold PagePool.releaseRuns
    generalize (List.finRange 64).filter (p.ownedBy t) = es
    revert p
    induction es with
    | nil => exact fun h => h
    | cons e es ih => exact fun h => ih (h.removeRun e)
  refine kept.mono fun e r hr owner => ⟨owner, ?_⟩
  rintro rfl
  rw [PagePool.releaseRuns_runs] at hr
  split at hr
  · cases hr
  · next no => exact no (PagePool.ownedBy_iff.2 ⟨r, hr, rfl⟩)

/-- A run with a new owner (R154). -/
theorem PagePool.Fits.give (h : p.Fits live) {e : Fin 64} {r : Run} (hr : p.runs[e] = some r) {t : Slot} (owner : live t) :
    { p with runs := p.runs.set e (some { r with owner := t }) }.Fits live := by
  have runs (f : Fin 64) : ({ p with runs := p.runs.set e (some { r with owner := t }) } : PagePool).runs[f] =
      if e = f then some { r with owner := t } else p.runs[f] := by
    simp only [Fin.getElem_fin, Vector.getElem_set, Fin.ext_iff]
  have covers (f : Fin 64) (k : Nat) :
      ({ p with runs := p.runs.set e (some { r with owner := t }) } : PagePool).Covers f k ↔ p.Covers f k := by
    unfold PagePool.Covers
    rw [runs]
    split
    · next same => subst same; simp [hr]
    · rfl
  refine ⟨h.low, h.high, fun i f => (h.map i f).trans (covers f _).symm, fun f r' hr' => ?_, ?_⟩
  · rw [runs] at hr'
    split at hr'
    · cases hr'
      obtain ⟨l₁, l₂, inside, -⟩ := h.runs e r hr
      exact ⟨l₁, l₂, inside, owner⟩
    · exact h.runs f r' hr'
  · refine Eq.trans ?_ h.free
    refine congrArg (p.freePages + ·) (Finset.sum_congr rfl fun f _ => ?_)
    rw [PagePool.lengthAt, runs]
    split
    · next same => subst same; rw [PagePool.lengthAt, hr]; rfl
    · rfl

end

end Sys2Proof.Machine

/-! ## Serving the page-wait queue, and the freeing of a slot (R150, R156) -/

namespace Sys2Proof.Machine

section
variable {s s' : State} {v away away' gone : Slot → Prop} {t : Slot}

/-! ### Changes of the objects -/

/-- The objects may change as the books allow. -/
theorem State.Sound.change (h : s.Sound away) (port : ∀ p, s'.port p = s.port p) (queue : ∀ l, s'.queue l = s.queue l)
    (task : ∀ u, s'.task u = s.task u) (books : s'.Books away') : s'.Sound away' :=
  State.limbo_nobody.1 ((State.limbo_nobody.2 h).change port queue (fun u _ => task u) books)

/-- Tasks are taken off the list that their waits have them in. -/
theorem State.ListsFit.take (h : s.ListsFit Nobody) {l : WaitList} (wait : ∀ u, (s'.task u).wait = (s.task u).wait)
    (nodup : (s'.entries l).Nodup) (here : ∀ u, u ∈ s'.entries l ↔ u ∈ s.entries l ∧ ¬gone u)
    (others : ∀ m, m ≠ l → s'.entries m = s.entries m) (inside : ∀ u, gone u → u ∈ s.entries l)
    (valid : ∀ k, s.Valid k → s'.Valid k) : s'.ListsFit gone where
  nodup m := by
    by_cases e : m = l
    · rw [e]; exact nodup
    · rw [others m e]; exact h.nodup m
  mem m u := by
    have before (m : WaitList) : u ∈ s.entries m ↔ s.waitsIn u m := (h.mem m u).trans (and_iff_right id)
    have waits : s'.waitsIn u m ↔ s.waitsIn u m := by simp only [State.waitsIn, wait]
    rw [waits]
    by_cases e : m = l
    · rw [e, here, before, and_comm]
    · rw [others m e, before]
      refine (and_iff_right_of_imp fun w k => e ?_).symm
      obtain ⟨r, hr, list⟩ := w
      obtain ⟨r', hr', list'⟩ := (before l).1 (inside u k)
      rw [hr] at hr'
      cases hr'
      exact Option.some.inj (list.symm.trans list')
  valid u w e := valid _ (h.valid u w (wait u ▸ e))

theorem PagePool.Fits.waitQueue {p : PagePool} {live : Slot → Prop} (h : p.Fits live) (l : List Slot) :
    { p with waitQueue := l }.Fits live := ⟨h.low, h.high, h.map, h.runs, h.free⟩

/-- A change of the pool alone. -/
theorem State.Books.repool (h : s.Books away) {f : PagePool → PagePool} (lists : (s.updPool f).ListsFit away')
    (pool : (s.updPool f).PoolLaw) : (s.updPool f).Books away' :=
  ⟨lists, h.filters, h.cells, h.lines, h.ticks, h.timers, pool⟩

/-! ### Serving -/

/-- The page request of a task of the page-wait queue. -/
theorem State.Books.asked (h : s.Books Nobody) (mem : t ∈ s.pool.waitQueue) :
    s.waitsIn t .pages ∧ (s.task t).wait.isSome ∧ 1 ≤ s.askedPages t ∧ s.askedPages t ≤ 32 := by
  have waits := ((h.lists.mem .pages t).1 mem).2
  obtain ⟨⟨kind, deadline⟩, e, list⟩ := waits
  obtain ⟨n, rfl⟩ := WaitKind.list_eq_pages.1 list
  have asked : s.askedPages t = n := by simp only [State.askedPages, e]
  rw [asked]
  exact ⟨⟨_, e, list⟩, by rw [e]; rfl, h.lists.valid t _ e⟩

/-- A task with a wait record is not FREE. -/
theorem State.Sound.live_of_wait (h : s.Sound away) (waits : (s.task t).wait.isSome) : s.states t ≠ .free := by
  rcases (h.records t).waiting.1 waits with e | ⟨p, o, -⟩
  · rw [e]; simp
  · rw [h.dispatcher.states_occupant o]; simp

/-- The head of the queue is taken off it, its wait still to end. -/
theorem State.Sound.takePageHead (h : s.Sound Nobody) {rest : List Slot} (queue : s.pool.waitQueue = t :: rest)
    {f : PagePool → PagePool} (left : (f s.pool).waitQueue = rest) (fits : (f s.pool).Fits fun u => s.states u ≠ .free) :
    (s.updPool f).Sound (· = t) := by
  have nodup := h.books.lists.nodup .pages
  rw [State.entries, queue, List.nodup_cons] at nodup
  refine h.change (State.updPool_port s f) (fun _ => rfl) (fun _ => rfl) (h.books.repool ?_ (State.poolLaw_iff.2 fits))
  refine h.books.lists.take (l := .pages) (fun _ => rfl) (left.symm ▸ nodup.2 : (f s.pool).waitQueue.Nodup)
    (fun u => ?_) (fun m ne => ?_) (fun u e => ?_) fun _ => id
  · simp only [State.entries, State.updPool_pool, left, queue, List.mem_cons]
    exact ⟨fun m => ⟨.inr m, fun e => nodup.1 (e ▸ m)⟩, fun ⟨m, ne⟩ => m.resolve_left ne⟩
  · cases m with
    | pages => exact absurd rfl ne
    | _ => rfl
  · rw [e, State.entries, queue]
    exact List.mem_cons_self

/-- The state in which the head of the queue has its run. -/
def State.granted (s : State) (t : Slot) (rest : List Slot) (e : Fin 64) (k : Nat) : State :=
  s.updPool fun p => { p.createRun e k (s.askedPages t) t with waitQueue := rest }

theorem State.granted_waitQueue (s : State) (t : Slot) (rest : List Slot) (e : Fin 64) (k : Nat) :
    (s.granted t rest e k).pool.waitQueue = rest := by
  unfold State.granted
  rw [State.updPool_pool]

theorem State.granted_task (s : State) (t : Slot) (rest : List Slot) (e : Fin 64) (k : Nat) (u : Slot) :
    (s.granted t rest e k).task u = s.task u := by
  unfold State.granted
  rw [State.updPool_task]

theorem State.Sound.grant (h : s.Sound Nobody) {rest : List Slot} (queue : s.pool.waitQueue = t :: rest) {e : Fin 64} {k : Nat}
    (grant : s.pool.grantFor (s.askedPages t) = some (e, k)) : (s.granted t rest e k).Sound (· = t) := by
  obtain ⟨-, waits, low, high⟩ := h.books.asked (t := t) (by rw [queue]; exact List.mem_cons_self)
  unfold State.granted
  refine h.takePageHead queue (by simp only) ?_
  exact ((State.poolLaw_iff.1 h.books.pool).createRun grant low high (h.live_of_wait waits)).waitQueue rest

theorem serveRounds_sound (n : Nat) : ∀ s : State, s.Sound Nobody → s.pool.waitQueue.length ≤ n →
    (serveRounds n s).1.Sound Nobody ∧ (serveRounds n s).1.HeadBlocked := by
  induction n with
  | zero =>
    intro s h length
    refine ⟨h, fun t head => ?_⟩
    have none_left : s.pool.waitQueue = [] := List.length_eq_zero_iff.1 (Nat.le_zero.1 length)
    simp only [serveRounds, none_left] at head
    cases head
  | succ n ih =>
    intro s h length
    unfold serveRounds
    cases queue : s.pool.waitQueue with
    | nil => exact ⟨h, fun t head => by simp only [queue] at head; cases head⟩
    | cons t rest =>
      cases grant : s.pool.grantFor (s.askedPages t) with
      | none =>
        simp only [grant]
        refine ⟨h, fun u head => ?_⟩
        rw [queue] at head
        cases head
        exact grant
      | some entry =>
        obtain ⟨e, k⟩ := entry
        simp only [grant]
        obtain ⟨-, waits, -⟩ := h.books.asked (t := t) (by rw [queue]; exact List.mem_cons_self)
        refine ih _ (endWait_sound (h.grant queue grant) (by rw [State.granted_task]; exact waits) (fun u => ⟨False.elim, fun k => k.2 k.1⟩) _) ?_
        rw [queue, List.length_cons] at length
        have le := (endWait_frame t (.ok (.page (BitVec.ofNat 8 k))) (s.granted t rest e k)).objects.waitQueue.length_le
        rw [State.granted_waitQueue] at le
        exact le.trans (Nat.le_of_succ_le_succ length)

/-- Serving keeps the laws and ends at a head that cannot be granted (R150). -/
theorem serve_lawful (h : s.Sound Nobody) (exchanges : ∀ x, (s.exchange x).state.Lawful) (timers : s.TimerOrder) :
    (serve s).Lawful := by
  obtain ⟨sound, blocked⟩ := serveRounds_sound s.pool.waitQueue.length s h le_rfl
  exact State.lawful_iff.2 ⟨sound, (serve_frame s).1.exchangesLawful exchanges, (serve_frame s).1.timerOrder timers, blocked⟩

/-! ### The freeing of a slot -/

theorem PagePool.releaseRuns_of_nil {p : PagePool} (h : p.runsOf t = []) : p.releaseRuns t = p := by
  have none_owned : (List.finRange 64).filter (p.ownedBy t) = [] := by
    refine List.filter_eq_nil_iff.2 fun e _ owned => ?_
    obtain ⟨r, hr, owner⟩ := PagePool.ownedBy_iff.1 owned
    exact PagePool.runsOf_eq_nil.1 h e r hr owner
  rw [PagePool.releaseRuns, none_owned, List.foldl_nil]

theorem freeSlot_task_self (t : Slot) (s : State) : (freeSlot t s).task t = blankTask (s.task t).generation := by
  rw [freeSlot_task, if_pos rfl]

theorem freeSlot_task_ne {t u : Slot} (s : State) (h : u ≠ t) : (freeSlot t s).task u = s.task u := by
  rw [freeSlot_task, if_neg h.symm]

/-- A slot whose task the Dispatcher has nowhere and that has no wait is freed with its runs. -/
theorem State.Limbo.freeSlot (h : s.Limbo (fun u => v u ∨ u = t) away) (wait : (s.task t).wait = none)
    (out : ∀ u, v u → u ≠ t) : (freeSlot t s).Limbo v away := by
  have task := freeSlot_task_self t s
  have limbo : (Machine.freeSlot t s).Limbo (fun u => v u ∨ u = t) away := by
    refine h.change (by simp [Machine.freeSlot]) (fun _ => rfl) (fun u hu => freeSlot_task_ne s fun e => hu (.inr e))
      (h.books.keep (fun _ => rfl) rfl rfl (fun _ => rfl) (by simp) (fun u => ?_) (State.poolLaw_iff.2 ?_))
    · by_cases e : u = t
      · rw [e, task, wait]; rfl
      · rw [freeSlot_task_ne s e]
    · refine ((State.poolLaw_iff.1 h.books.pool).releaseRuns t).mono fun e r _ owner => ?_
      rw [State.states, freeSlot_task_ne s owner.2]
      exact owner.1
  refine limbo.settle (fun u => ⟨fun hu => ⟨.inl hu, out u hu⟩, fun hu => hu.1.resolve_right hu.2⟩) ?_
    (limbo.recordLaw (.inr rfl) ?_ ?_)
  · rw [State.states, task]; simp [blankTask, TaskState.Away]
  · rw [State.states, task]; simp [blankTask]
  · rw [task]; rfl

theorem State.Limbo.freeSlot_sound (h : s.Limbo (· = t) away) (wait : (s.task t).wait = none) : (Machine.freeSlot t s).Sound away :=
  State.limbo_nobody.1 (State.Limbo.freeSlot
    (by simpa only [Nobody, false_or] using h) wait fun _ => False.elim)

/-- A slot is retired (R11, R156). -/
theorem State.Limbo.retire (h : s.Limbo (· = t) Nobody) (wait : (s.task t).wait = none)
    (exchanges : ∀ x, (s.exchange x).state.Lawful) (timers : s.TimerOrder) {wasHead : Bool}
    (blocked : wasHead = false → s.HeadBlocked) : (retire t wasHead s).Lawful := by
  have sound := h.freeSlot_sound wait
  have objects := freeSlot_objects t s
  rw [retire_eq]
  split
  · exact serve_lawful sound (objects.exchangesLawful exchanges) (objects.timerOrder timers)
  · next no =>
    obtain ⟨no_runs, not_head⟩ := not_or.1 no
    have same : (Machine.freeSlot t s).pool = s.pool :=
      (freeSlot_pool t s).trans (PagePool.releaseRuns_of_nil (not_not.1 no_runs))
    refine State.lawful_iff.2 ⟨sound, objects.exchangesLawful exchanges, objects.timerOrder timers,
      (blocked (Bool.not_eq_true _ ▸ not_head)).congr (by rw [same]) fun u hu => ⟨by rw [same] at hu; exact hu, ?_⟩⟩
    by_cases e : u = t
    · rw [e, freeSlot_task_self, wait]; rfl
    · rw [freeSlot_task_ne s e]

end

end Sys2Proof.Machine

/-! ## The beginning of a wait (R51, R82, R116) -/

namespace Sys2Proof.Machine

/-! ### Joining a list -/

/-- A waiter list keeps its entries, in whatever order it is kept (R82). -/
theorem insertWaiter_perm (s : State) (o : WaiterOrder) (t : Slot) (l : List Slot) :
    (insertWaiter s o t l).Perm (t :: l) := by
  cases o with
  | arrival => exact List.perm_append_singleton t l
  | urgency =>
    refine List.perm_middle.trans (.cons t ?_)
    rw [List.takeWhile_append_dropWhile]

section
variable {s s' : State} {away away' : Slot → Prop} {t : Slot} {k : WaitKind} {l : WaitList}

theorem joinList_entries_self (t : Slot) (h : k.list = some l) (v : s.Valid k) :
    ((joinList t k s).entries l).Perm (t :: s.entries l) := by
  cases l with
  | receivers x =>
    obtain ⟨id, low, high, rfl, i⟩ := WaitKind.list_eq_receivers.1 h
    obtain ⟨-, o, b, e⟩ := v.receivers h
    simp only [joinList, i, State.entries, updMailbox_exchange, if_true, e]
    exact insertWaiter_perm ..
  | senders x =>
    obtain ⟨id, m, rfl, i⟩ := WaitKind.list_eq_senders.1 h
    obtain ⟨-, o, b, e⟩ := v.senders h
    simp only [joinList, i, State.entries, updMailbox_exchange, if_true, e]
    exact insertWaiter_perm ..
  | acquirers x =>
    obtain ⟨id, rfl, i⟩ := WaitKind.list_eq_acquirers.1 h
    obtain ⟨-, o, c, e⟩ := v.acquirers h
    simp only [joinList, i, State.entries, updCounter_exchange, if_true, e]
    exact insertWaiter_perm ..
  | line l =>
    obtain rfl := WaitKind.list_eq_line.1 h
    simp only [joinList, State.entries, State.updLine_line, if_true]
    exact List.perm_append_singleton _ _
  | pages =>
    obtain ⟨n, rfl⟩ := WaitKind.list_eq_pages.1 h
    exact List.perm_append_singleton _ _

theorem joinList_entries_ne (t : Slot) (s : State) (h : k.list ≠ some l) : (joinList t k s).entries l = s.entries l := by
  cases k with
  | delay => rfl
  | recv id low high =>
    cases i : exchangeIndex id with
    | none => simp only [joinList, i]
    | some x =>
      simp only [joinList, i]
      exact updMailbox_entries (fun e => absurd (by simp [WaitKind.list, i, e]) h) fun _ _ => rfl
  | send id m =>
    cases i : exchangeIndex id with
    | none => simp only [joinList, i]
    | some x =>
      simp only [joinList, i]
      exact updMailbox_entries (fun _ _ => rfl) fun e => absurd (by simp [WaitKind.list, i, e]) h
  | acquire id =>
    cases i : exchangeIndex id with
    | none => simp only [joinList, i]
    | some x =>
      simp only [joinList, i]
      exact updCounter_entries fun e => absurd (by simp [WaitKind.list, i, e]) h
  | event m => exact updLine_entries fun e => h (e ▸ rfl)
  | pages n => exact updPool_entries fun e => h (e ▸ rfl)

/-- The states differ in lists of waiters alone. -/
structure ListsOnly (s s' : State) : Prop where
  task : ∀ t, s'.task t = s.task t
  queue : ∀ l, s'.queue l = s.queue l
  port : ∀ p, s'.port p = s.port p
  generation : ∀ x, (s'.exchange x).generation = (s.exchange x).generation
  exchange : ∀ x, (s.exchange x).state.Relists (s'.exchange x).state
  freeCells : s'.freeCells = s.freeCells
  time : s'.time = s.time
  line : ∀ l, s'.line l = { s.line l with waiters := (s'.line l).waiters }
  pool : s'.pool = { s.pool with waitQueue := s'.pool.waitQueue }

theorem ListsOnly.refl (s : State) : ListsOnly s s :=
  ⟨fun _ => rfl, fun _ => rfl, fun _ => rfl, fun _ => rfl, fun _ => .refl _, rfl, rfl, fun _ => rfl, rfl⟩

theorem updMailbox_listsOnly (s : State) (x : Fin 16) {f : Mailbox → Mailbox}
    (h : ∀ b, ∃ r q, f b = { b with receivers := r, senders := q }) : ListsOnly s (s.updMailbox x f) where
  task := by simp
  queue := by simp
  port := by simp
  generation y := by
    rw [updMailbox_exchange]
    split
    · next e => subst e; rfl
    · rfl
  exchange y := by
    rw [updMailbox_exchange]
    split
    · next e =>
      subst e
      cases m : (s.exchange x).state with
      | message o b => obtain ⟨r, q, k⟩ := h b; exact ⟨r, q, congrArg _ k⟩
      | closed => exact .refl _
      | count o c => exact .refl _
    · exact .refl _
  freeCells := by simp
  time := by simp
  line l := by rw [State.updMailbox_line]
  pool := by simp

theorem updCounter_listsOnly (s : State) (x : Fin 16) {f : Counter → Counter}
    (h : ∀ c, ∃ a, f c = { c with acquirers := a }) : ListsOnly s (s.updCounter x f) where
  task := by simp
  queue := by simp
  port := by simp
  generation y := by
    rw [updCounter_exchange]
    split
    · next e => subst e; rfl
    · rfl
  exchange y := by
    rw [updCounter_exchange]
    split
    · next e =>
      subst e
      cases m : (s.exchange x).state with
      | count o c => obtain ⟨a, k⟩ := h c; exact ⟨a, congrArg _ k⟩
      | closed => exact .refl _
      | message o b => exact .refl _
    · exact .refl _
  freeCells := by simp
  time := by simp
  line l := by rw [State.updCounter_line]
  pool := by simp

theorem joinList_listsOnly (t : Slot) (k : WaitKind) (s : State) : ListsOnly s (joinList t k s) := by
  cases k with
  | delay => exact .refl s
  | recv id low high =>
    cases i : exchangeIndex id with
    | none => simpa only [joinList, i] using .refl s
    | some x => simpa only [joinList, i] using updMailbox_listsOnly s x fun b => ⟨_, _, rfl⟩
  | send id m =>
    cases i : exchangeIndex id with
    | none => simpa only [joinList, i] using .refl s
    | some x => simpa only [joinList, i] using updMailbox_listsOnly s x fun b => ⟨_, _, rfl⟩
  | acquire id =>
    cases i : exchangeIndex id with
    | none => simpa only [joinList, i] using .refl s
    | some x => simpa only [joinList, i] using updCounter_listsOnly s x fun b => ⟨_, rfl⟩
  | event m =>
    refine ⟨by simp [joinList], by simp [joinList], by simp [joinList], fun _ => rfl, fun _ => .refl _, rfl, rfl, fun l => ?_, rfl⟩
    simp only [joinList, State.updLine_line]
    split
    · next e => subst e; rfl
    · rfl
  | pages n =>
    exact ⟨by simp [joinList], by simp [joinList], by simp [joinList], fun _ => rfl, fun _ => .refl _, rfl, rfl, fun _ => rfl, rfl⟩

/-! ### The timer entry -/

theorem insertEntry_perm (c : TickCount) (e : TimerEntry) (l : List TimerEntry) : (insertEntry c e l).Perm (e :: l) := by
  refine List.perm_middle.trans (.cons e ?_)
  rw [List.takeWhile_append_dropWhile]

theorem insertEntry_cons (c : TickCount) (e f : TimerEntry) (l : List TimerEntry) :
    insertEntry c e (f :: l) =
      if remainingCount c f.deadline ≤ remainingCount c e.deadline then f :: insertEntry c e l else e :: f :: l := by
  unfold insertEntry
  by_cases le : remainingCount c f.deadline ≤ remainingCount c e.deadline <;> simp [le]

/-- An entry takes its place in the order of remaining counts (R116). -/
theorem insertEntry_sorted (c : TickCount) (e : TimerEntry) {l : List TimerEntry}
    (h : (l.map fun e => remainingCount c e.deadline).Pairwise (· ≤ ·)) :
    ((insertEntry c e l).map fun e => remainingCount c e.deadline).Pairwise (· ≤ ·) := by
  induction l with
  | nil => simp [insertEntry]
  | cons f l ih =>
    rw [List.map_cons, List.pairwise_cons] at h
    obtain ⟨first, rest⟩ := h
    rw [insertEntry_cons]
    split
    · next le =>
      rw [List.map_cons, List.pairwise_cons]
      refine ⟨fun r hr => ?_, ih rest⟩
      obtain ⟨g, hg, rfl⟩ := List.mem_map.1 hr
      rcases List.mem_cons.1 ((insertEntry_perm c e l).mem_iff.1 hg) with rfl | hg
      · exact le
      · exact first _ (List.mem_map.2 ⟨g, hg, rfl⟩)
    · next lt =>
      rw [List.map_cons, List.pairwise_cons, List.map_cons, List.pairwise_cons]
      refine ⟨fun r hr => ?_, first, rest⟩
      rcases List.mem_cons.1 hr with rfl | hr
      · omega
      · exact (Nat.le_of_not_le lt).trans (first r hr)

/-- The remaining count of a deadline given now is its timeout (R116). -/
theorem remainingCount_deadlineIn (s : State) (timeout : Half) :
    remainingCount s.time.counter (s.deadlineIn timeout) = timeout.toNat := by
  have h := timeout.isLt
  unfold remainingCount State.deadlineIn
  have := s.time.counter.isLt
  rw [BitVec.toNat_sub, BitVec.toNat_add, BitVec.toNat_setWidth]
  omega

/-- The deadlines that a wait option in range gives: none, or a timeout of 1 to 65535 from now (R84, R116). -/
def State.DeadlineFits (s : State) (d : Option TickCount) : Prop :=
  ∀ e, d = some e → 1 ≤ remainingCount s.time.counter e ∧ remainingCount s.time.counter e ≤ 65535

theorem State.deadlineIn_fits (s : State) {timeout : Half} (h : timeout ≠ 0) : s.DeadlineFits (some (s.deadlineIn timeout)) := by
  rintro e ⟨⟩
  rw [remainingCount_deadlineIn]
  have pos : timeout.toNat ≠ 0 := fun e => h (BitVec.eq_of_toNat_eq e)
  have := timeout.isLt
  omega

theorem State.deadlineOf_fits (s : State) {option : Byte} {timeout : Half} (h : waitInRange option timeout = true) :
    s.DeadlineFits (s.deadlineOf option timeout) := by
  unfold State.deadlineOf
  split
  · next two =>
    refine s.deadlineIn_fits ?_
    rintro rfl
    rw [two] at h
    exact absurd h (by decide)
  · intro e h; cases h

/-! ### The books -/

/-- The wait that a task begins: its record, its entry in the list and its timer entry. -/
def State.waiting (s : State) (x : Slot) (k : WaitKind) (d : Option TickCount) : State :=
  insertTimer x d (joinList x k (s.updTask x fun r => { r with wait := some ⟨k, d⟩, delivery := none }))

theorem beginWait_eq (p : Port) (x : Slot) (k : WaitKind) (d : Option TickCount) (s : State) :
    beginWait p x k d s = redecide p false ((s.waiting x k d).setDisposition p .wait) := rfl

/-- What a wait may be begun on: its object is there, no queued message passes a receiver's filter, no event is latched. -/
structure State.CanWait (s : State) (k : WaitKind) : Prop where
  valid : s.Valid k
  filter : ∀ id low high x b, k = .recv id low high → exchangeIndex id = some x → s.mailbox x = some b →
    ∀ m ∈ b.queue, tagInRange low high m.tag = false
  latch : ∀ l, k = .event l → (s.line l).latch = 0

variable {x : Slot} {d : Option TickCount}

theorem State.waiting_task (s : State) (x : Slot) (k : WaitKind) (d : Option TickCount) :
    (s.waiting x k d).task x = { s.task x with wait := some ⟨k, d⟩, delivery := none } := by
  simp [State.waiting, (joinList_listsOnly x k _).task]

theorem State.waiting_task_ne (s : State) {x u : Slot} (k : WaitKind) (d : Option TickCount) (h : u ≠ x) :
    (s.waiting x k d).task u = s.task u := by
  simp [State.waiting, (joinList_listsOnly x k _).task, State.updTask_task_ne _ _ h.symm]

theorem State.waiting_queue (s : State) (x : Slot) (k : WaitKind) (d : Option TickCount) (l : Fin 32) :
    (s.waiting x k d).queue l = s.queue l := by
  rw [State.waiting, insertTimer_queue, (joinList_listsOnly x k _).queue]; rfl

theorem State.waiting_port (s : State) (x : Slot) (k : WaitKind) (d : Option TickCount) (p : Port) :
    (s.waiting x k d).port p = s.port p := by
  simp [State.waiting, (joinList_listsOnly x k _).port]

theorem insertTimer_entries (t : Slot) (d : Option TickCount) (s : State) (l : WaitList) : (insertTimer t d s).entries l = s.entries l := by
  cases d <;> cases l <;> rfl

theorem insertTimer_time (t : Slot) (d : Option TickCount) (s : State) :
    (insertTimer t d s).time = { s.time with timers := (insertTimer t d s).time.timers } := by
  cases d <;> rfl

theorem insertTimer_timers (t : Slot) (d : Option TickCount) (s : State) :
    (insertTimer t d s).time.timers = d.elim s.time.timers fun e => insertEntry s.time.counter ⟨t, e⟩ s.time.timers := by
  cases d <;> rfl

/-- The states differ in lists of waiters and timer entries, but for the task. -/
theorem State.waiting_objects (s : State) (x : Slot) (k : WaitKind) (d : Option TickCount) :
    (∀ y, ((s.waiting x k d).exchange y).generation = (s.exchange y).generation) ∧
      (∀ y, (s.exchange y).state.Relists ((s.waiting x k d).exchange y).state) ∧
      (s.waiting x k d).freeCells = s.freeCells ∧
      (∀ l, (s.waiting x k d).line l = { s.line l with waiters := ((s.waiting x k d).line l).waiters }) ∧
      (s.waiting x k d).pool = { s.pool with waitQueue := (s.waiting x k d).pool.waitQueue } := by
  have h := joinList_listsOnly x k (s.updTask x fun r => { r with wait := some ⟨k, d⟩, delivery := none })
  simp only [State.waiting, insertTimer_exchange, insertTimer_freeCells, insertTimer_line, insertTimer_pool]
  exact ⟨h.generation, h.exchange, h.freeCells, h.line, h.pool⟩

theorem State.waiting_time (s : State) (x : Slot) (k : WaitKind) (d : Option TickCount) :
    (s.waiting x k d).time =
      { s.time with timers := d.elim s.time.timers fun e => insertEntry s.time.counter ⟨x, e⟩ s.time.timers } := by
  rw [State.waiting, insertTimer_time, insertTimer_timers, (joinList_listsOnly x k _).time]
  rfl

/-- The lists while a task is away from none: one of them has it now. -/
theorem State.waiting_entries (v : s.Valid k) (l : WaitList) :
    (k.list = some l ∧ ((s.waiting x k d).entries l).Perm (x :: s.entries l)) ∨
      (k.list ≠ some l ∧ (s.waiting x k d).entries l = s.entries l) := by
  have same : (s.updTask x fun r => { r with wait := some ⟨k, d⟩, delivery := none }).entries l = s.entries l := by
    cases l <;> rfl
  rw [State.waiting, insertTimer_entries, ← same]
  by_cases h : k.list = some l
  · exact .inl ⟨h, joinList_entries_self x h (v.congr fun _ => rfl)⟩
  · exact .inr ⟨h, joinList_entries_ne x _ h⟩

theorem State.Books.not_mem (h : s.Books Nobody) (wait : (s.task x).wait = none) (l : WaitList) : x ∉ s.entries l := fun m => by
  obtain ⟨-, w, e, -⟩ := (h.lists.mem l x).1 m
  rw [wait] at e; cases e

theorem State.waiting_mem (v : s.Valid k) (l : WaitList) (u : Slot) :
    u ∈ (s.waiting x k d).entries l ↔ (u = x ∧ k.list = some l) ∨ u ∈ s.entries l := by
  rcases State.waiting_entries (x := x) (d := d) v l with ⟨e, perm⟩ | ⟨ne, same⟩
  · rw [perm.mem_iff, List.mem_cons]
    simp [e]
  · rw [same]
    simp [ne]

theorem State.Books.waiting (h : s.Books Nobody) (wait : (s.task x).wait = none) (can : s.CanWait k) :
    (s.waiting x k d).Books Nobody := by
  obtain ⟨generation, exchange, freeCells, line, pool⟩ := s.waiting_objects x k d
  have self := s.waiting_task x k d
  have other {u : Slot} (ne : u ≠ x) := s.waiting_task_ne k d ne
  have mem (l : WaitList) (u : Slot) := State.waiting_mem (x := x) (d := d) can.valid l u
  refine
    { lists := ⟨fun l => ?_, fun l u => ?_, fun u w e => ?_⟩
      filters := fun y b' e m hm u hu => ?_
      cells := h.cells.relist freeCells exchange
      lines := fun l => ?_
      ticks := by rw [State.waiting_time]; exact h.ticks
      timers := ?_
      pool := h.pool.congr pool fun u e => ?_ }
  · rcases State.waiting_entries (x := x) (d := d) can.valid l with ⟨-, perm⟩ | ⟨-, same⟩
    · exact perm.nodup_iff.2 (List.nodup_cons.2 ⟨h.not_mem wait l, h.lists.nodup l⟩)
    · rw [same]; exact h.lists.nodup l
  · rw [mem]
    by_cases e : u = x
    · subst e
      simp only [h.not_mem wait l, or_false, true_and, State.waitsIn, self, Nobody, not_false_eq_true]
      exact ⟨fun k => ⟨_, rfl, k⟩, fun ⟨w, e, k⟩ => by cases e; exact k⟩
    · simp only [e, false_and, false_or, State.waitsIn, other e]
      exact h.lists.mem l u
  · refine State.Valid.relist generation exchange ?_
    by_cases ne : u = x
    · subst ne
      rw [self] at e
      cases e
      exact can.valid
    · exact h.lists.valid u w (other ne ▸ e)
  · obtain ⟨o, e⟩ := State.mailbox_eq_some.1 e
    obtain ⟨b, e', queue, -⟩ := (exchange y).of_message e
    have entry : u ∈ (s.waiting x k d).entries (.receivers y) := by rw [State.entries, e]; exact hu
    rcases (mem _ u).1 entry with ⟨rfl, list⟩ | before
    · obtain ⟨id, low, high, rfl, i⟩ := WaitKind.list_eq_receivers.1 list
      simp only [State.filterMatches, self]
      exact can.filter id low high y b rfl i (State.mailbox_eq_some.2 ⟨o, e'⟩) m (queue ▸ hm)
    · have ne : u ≠ x := by rintro rfl; exact h.not_mem wait _ before
      simp only [State.filterMatches, other ne]
      rw [State.entries, e'] at before
      exact h.filters y b (State.mailbox_eq_some.2 ⟨o, e'⟩) m (queue ▸ hm) u before
  · rw [line l]
    refine ⟨(h.lines l).1, fun ne => ?_⟩
    obtain ⟨u, hu⟩ := List.exists_mem_of_ne_nil _ ne
    rcases (mem (.line l) u).1 hu with ⟨-, list⟩ | before
    · exact can.latch l (WaitKind.list_eq_line.1 list)
    · exact (h.lines l).2 (List.ne_nil_of_mem before)
  · have timers : (s.waiting x k d).time.timers =
        d.elim s.time.timers fun e => insertEntry s.time.counter ⟨x, e⟩ s.time.timers := by rw [State.waiting_time]
    have none_there (e : TickCount) : (⟨x, e⟩ : TimerEntry) ∉ s.time.timers := fun m => by
      have := (h.timers.2 x e).1 m
      rw [wait] at this; cases this
    have fresh : x ∉ s.time.timers.map (·.task) := fun m => by
      obtain ⟨⟨y, e⟩, me, rfl⟩ := List.mem_map.1 m
      exact none_there e me
    unfold State.TimerLaw
    rw [timers]
    cases d with
    | none =>
      refine ⟨h.timers.1, fun u e => ?_⟩
      by_cases ne : u = x
      · subst ne; rw [self]; exact iff_of_false (none_there e) (by simp)
      · rw [other ne]; exact h.timers.2 u e
    | some deadline =>
      have perm := insertEntry_perm s.time.counter ⟨x, deadline⟩ s.time.timers
      refine ⟨(perm.map (·.task)).nodup_iff.2 (List.nodup_cons.2 ⟨fresh, h.timers.1⟩), fun u e => ?_⟩
      rw [Option.elim_some, perm.mem_iff, List.mem_cons]
      by_cases ne : u = x
      · subst ne
        rw [self]
        simp [none_there, eq_comm]
      · rw [other ne, ← h.timers.2 u e]
        simp [ne]
  · by_cases ne : u = x
    · subst ne; rw [State.states, self] at e; exact e
    · rwa [State.states, other ne] at e

end

end Sys2Proof.Machine

/-! ## The beginning of a wait keeps the laws (R51) -/

namespace Sys2Proof.Machine

/-- What a wait is begun on cannot be had at once (R81, R97, R149): a sender finds the queue full, an acquirer no unit, and a
page request at the head of its queue cannot be granted. -/
structure State.MustWait (s : State) (k : WaitKind) : Prop extends State.CanWait s k where
  full : ∀ id m x b, k = .send id m → exchangeIndex id = some x → s.mailbox x = some b → b.queue.length = b.capacity
  empty : ∀ id x o c, k = .acquire id → exchangeIndex id = some x → (s.exchange x).state = .count o c → c.count = 0
  blocked : ∀ n, k = .pages n → s.pool.waitQueue = [] → s.pool.grantFor n = none

section
variable {s s' : State} {away : Slot → Prop} {p : Port} {x : Slot} {k : WaitKind} {d : Option TickCount}

theorem State.Sound.occupant_wait_none (h : s.Sound away) (o : (s.port p).occ.occupant = some x)
    (not_waiting : (s.port p).occ.disposition ≠ some .wait) : (s.task x).wait = none := by
  by_contra waits
  rcases (h.records x).waiting.1 (Option.isSome_iff_ne_none.2 waits) with e | l
  · rw [h.dispatcher.states_occupant o] at e; cases e
  · exact not_waiting ((h.dispatcher.leaving_iff o _).1 l)

/-- A mailbox or a count record as the list law reads it. -/
theorem ExchangeState.Relists.lawful {e e' : ExchangeState} (h : e.Relists e') (l : e.Lawful)
    (senders : e'.senders ≠ [] → ∀ o b, e = .message o b → b.queue.length = b.capacity)
    (acquirers : e'.acquirers ≠ [] → ∀ o c, e = .count o c → c.count = 0) : e'.Lawful := by
  cases e with
  | closed => rw [ExchangeState.Relists] at h; rw [h]; exact trivial
  | message o b =>
    obtain ⟨r, q, rfl⟩ := h.message rfl
    exact ⟨l.1, l.2.1, l.2.2.1, fun ne => senders ne o b rfl⟩
  | count o c =>
    obtain ⟨a, rfl⟩ := h.count rfl
    exact ⟨l.1, l.2.1, l.2.2.1, fun ne => acquirers ne o c rfl⟩

theorem ExchangeState.Lawful.full {e : ExchangeState} (l : e.Lawful) (ne : e.senders ≠ []) {o : WaiterOrder} {b : Mailbox}
    (m : e = .message o b) : b.queue.length = b.capacity := by
  subst m; exact l.2.2.2 ne

theorem ExchangeState.Lawful.empty {e : ExchangeState} (l : e.Lawful) (ne : e.acquirers ≠ []) {o : WaiterOrder} {c : Counter}
    (m : e = .count o c) : c.count = 0 := by
  subst m; exact l.2.2.2 ne

theorem State.waiting_rested (h : s.Lawful) (wait : (s.task x).wait = none) (must : s.MustWait k) (deadline : s.DeadlineFits d) :
    (s.waiting x k d).Rested := by
  obtain ⟨-, exchange, -, -, pool⟩ := s.waiting_objects x k d
  have mem (l : WaitList) (u : Slot) := State.waiting_mem (x := x) (d := d) must.valid l u
  refine ⟨fun y => (exchange y).lawful (h.exchanges y) (fun ne o b e => ?_) fun ne o c e => ?_, ?_, ?_⟩
  · obtain ⟨u, hu⟩ := List.exists_mem_of_ne_nil _ ne
    rcases (mem (.senders y) u).1 hu with ⟨-, list⟩ | before
    · obtain ⟨id, m, rfl, i⟩ := WaitKind.list_eq_senders.1 list
      exact must.full id m y b rfl i (State.mailbox_eq_some.2 ⟨o, e⟩)
    · exact (h.exchanges y).full (List.ne_nil_of_mem before) e
  · obtain ⟨u, hu⟩ := List.exists_mem_of_ne_nil _ ne
    rcases (mem (.acquirers y) u).1 hu with ⟨-, list⟩ | before
    · obtain ⟨id, rfl, i⟩ := WaitKind.list_eq_acquirers.1 list
      exact must.empty id y o c rfl i e
    · exact (h.exchanges y).empty (List.ne_nil_of_mem before) e
  · unfold State.TimerOrder
    rw [State.waiting_time]
    cases d with
    | none => exact h.timerOrder
    | some e =>
      refine ⟨insertEntry_sorted _ _ h.timerOrder.1, fun f hf => ?_⟩
      rcases List.mem_cons.1 ((insertEntry_perm _ _ _).mem_iff.1 hf) with rfl | hf
      · exact deadline e rfl
      · exact h.timerOrder.2 f hf
  · by_cases pages : k.list = some .pages
    · obtain ⟨n, rfl⟩ := WaitKind.list_eq_pages.1 pages
      have queue : (s.waiting x (.pages n) d).pool.waitQueue = s.pool.waitQueue ++ [x] := by
        simp [State.waiting, joinList]
      cases q : s.pool.waitQueue with
      | nil =>
        intro u head
        rw [queue, q] at head
        cases head
        have asked : (s.waiting x (.pages n) d).askedPages x = n := by
          simp only [State.askedPages, s.waiting_task x (.pages n) d]
        rw [asked, pool]
        exact must.blocked n rfl q
      | cons v rest =>
        refine h.headBlocked.congr pool fun u head => ?_
        rw [queue, q] at head
        have ne : u ≠ x := by
          rintro rfl
          refine h.sound.books.not_mem wait .pages ?_
          rw [State.entries, q]
          cases head
          exact List.mem_cons_self
        exact ⟨by rw [q]; exact head, by rw [s.waiting_task_ne _ d ne]⟩
    · have queue : (s.waiting x k d).pool.waitQueue = s.pool.waitQueue := by
        rcases State.waiting_entries (x := x) (d := d) must.valid .pages with ⟨e, -⟩ | ⟨-, e⟩
        · exact absurd e pages
        · exact e
      refine h.headBlocked.congr pool fun u head => ?_
      rw [queue] at head
      have ne : u ≠ x := by
        rintro rfl
        exact h.sound.books.not_mem wait .pages (List.mem_of_mem_head? head)
      exact ⟨head, by rw [s.waiting_task_ne _ d ne]⟩

/-- The beginning of a wait keeps every law. -/
theorem State.Lawful.beginWait (h : s.Lawful) (caller : s.IsCaller p x) (must : s.MustWait k) (deadline : s.DeadlineFits d) :
    (beginWait p x k d s).Lawful := by
  have sound := h.sound
  have o := caller.occupant
  have running := h.dispatcher.states_occupant o
  have none_before := sound.occupant_wait_none o caller.notWaiting
  have books := (BooksKept.setDisposition (s.waiting x k d) p .wait).books (sound.books.waiting (d := d) none_before must.toCanWait)
  have port (q : Port) : ((s.waiting x k d).setDisposition p .wait).port q =
      if p = q then { s.port p with occ := { (s.port p).occ with disposition := some .wait } } else s.port q := by
    rw [State.setDisposition_port]
    simp only [s.waiting_port]
  have here := (port p).trans (if_pos rfl)
  have there (q : Port) (ne : p ≠ q) := (port q).trans (if_neg ne)
  have leaving := h.dispatcher.leaving_revised o here there
  have self : ((s.waiting x k d).setDisposition p .wait).task x = { s.task x with wait := some ⟨k, d⟩, delivery := none } := by
    rw [State.setDisposition_task, s.waiting_task]
  rw [beginWait_eq]
  refine State.lawful_iff.2 ⟨(sound.revise here there (fun l => by rw [State.setDisposition_queue, s.waiting_queue])
    (fun u ne => by rw [State.setDisposition_task, s.waiting_task_ne k d ne]) (by rw [State.states, self]; rfl) (by rw [self])
    (by rw [running]; simp) (fun q ne => h.dispatcher.occupant_not_next o ne) (.inr o)
    (PortRecord.redecidable_leaving (.inl rfl) (by rw [o]; simp)) ⟨?_, ?_⟩ books).redecide,
    (redecide_frame _ _ _).booksKept.rested
      ((BooksKept.setDisposition _ _ _).rested (State.waiting_rested h none_before must deadline))⟩
  · rw [self, leaving]
    exact iff_of_true rfl (.inr rfl)
  · rw [self, leaving]
    exact iff_of_false (by simp [caller.notDoomed]) (by simp)

end

end Sys2Proof.Machine

/-! ## The commands on one task keep the laws (R12, R13, R17 to R20, R40) -/

namespace Sys2Proof.Machine

section
variable {s s' : State} {away : Slot → Prop} {p : Port} {x t f : Slot}

/-! ### Tasks outside the Dispatcher -/

@[simp] theorem refuse_state (r : Result) (s : State) : (refuse r s).state = s := rfl

@[simp] theorem done_state (bytes : List Byte) (s : State) : (done bytes s).state = s := rfl

theorem State.Sound.no_wait (h : s.Sound away) (running : s.states t ≠ .running) (waiting : s.states t ≠ .waiting) :
    (s.task t).wait = none := by
  by_contra waits
  rcases (h.records t).waiting.1 (Option.isSome_iff_ne_none.2 waits) with e | l
  · exact waiting e
  · exact h.not_leaving running _ l

theorem State.updTask_states_eq {g : TaskRecord → TaskRecord} (state : (g (s.task t)).state = (s.task t).state) :
    (s.updTask t g).states = s.states := by
  rw [State.updTask_states]
  exact moveTo_eq_self state.symm

theorem State.Sound.not_doomed (h : s.Sound away) (ne : s.states t ≠ .running) : (s.task t).doomed = false :=
  (h.records t).not_doomed (h.not_leaving ne _)

/-- The record of a task outside the Dispatcher may change, its wait apart, so long as it stays there. -/
theorem State.Sound.updTask_away (h : s.Sound away) {g : TaskRecord → TaskRecord} (outside : (s.states t).Away)
    (still : (g (s.task t)).state.Away) (wait : (g (s.task t)).wait = (s.task t).wait)
    (waiting : (g (s.task t)).state = .waiting ↔ s.states t = .waiting) (doomed : (g (s.task t)).doomed = false)
    (live : (g (s.task t)).state = .free → s.states t = .free) : (s.updTask t g).Sound away := by
  have limbo : (s.updTask t g).Limbo (· = t) away :=
    (h.limbo outside).updTask rfl ((BooksKept.updTask wait live).books h.books)
  have self : (s.updTask t g).task t = g (s.task t) := State.updTask_task_self ..
  refine limbo.sound (by rw [State.states, self]; exact still) (limbo.recordLaw rfl ?_ (by rw [self]; exact doomed))
  rw [self, wait, State.states, self, waiting]
  exact (h.records t).waiting.trans (or_iff_left (h.not_leaving outside.2.1 _))

theorem State.Lawful.updTask_away (h : s.Lawful) {g : TaskRecord → TaskRecord} (outside : (s.states t).Away)
    (still : (g (s.task t)).state.Away) (wait : (g (s.task t)).wait = (s.task t).wait)
    (waiting : (g (s.task t)).state = .waiting ↔ s.states t = .waiting) (doomed : (g (s.task t)).doomed = false)
    (live : (g (s.task t)).state = .free → s.states t = .free) : (s.updTask t g).Lawful :=
  State.lawful_iff.2 ⟨h.sound.updTask_away outside still wait waiting doomed live,
    (BooksKept.updTask wait live).rested h.rested⟩

theorem State.Lawful.updTask (h : s.Lawful) {g : TaskRecord → TaskRecord}
    (state : (g (s.task t)).state = (s.task t).state) (priority : (g (s.task t)).priority = (s.task t).priority)
    (affinity : (g (s.task t)).affinity = (s.task t).affinity) (wait : (g (s.task t)).wait = (s.task t).wait)
    (doomed : (g (s.task t)).doomed = (s.task t).doomed) : (s.updTask t g).Lawful :=
  State.lawful_iff.2 ⟨h.sound.updTask state priority affinity wait doomed,
    (BooksKept.updTask wait fun e => state ▸ e).rested h.rested⟩

/-- A task in limbo with no wait becomes READY, the objects being at rest. -/
theorem State.Limbo.readyTail_lawful (h : s.Limbo (· = t) Nobody) (r : s.Rested) (wait : (s.task t).wait = none)
    (doomed : (s.task t).doomed = false) : (Machine.readyTail t s).Lawful :=
  State.lawful_iff.2 ⟨h.readyTail wait doomed, (readyTail_frame t s).booksKept.rested r⟩

theorem State.Limbo.readyHead_lawful (h : s.Limbo (· = t) Nobody) (r : s.Rested) (wait : (s.task t).wait = none)
    (doomed : (s.task t).doomed = false) : (Machine.readyHead t s).Lawful :=
  State.lawful_iff.2 ⟨h.readyHead wait doomed, (readyHead_frame t s).booksKept.rested r⟩

theorem State.Revising.redecide_lawful (h : s.Revising p Nobody) (r : s.Rested) : (Machine.redecide p false s).Lawful :=
  State.lawful_iff.2 ⟨h.redecide, (redecide_frame p false s).booksKept.rested r⟩

/-! ### A departing occupant -/

/-- An occupant has a new disposition, and its record what goes with it; its port is about to be re-decided. -/
theorem State.Sound.redispose (h : s.Sound away) (o : (s.port p).occ.occupant = some x) {g : TaskRecord → TaskRecord}
    {e : Disposition} (state : (g (s.task x)).state = (s.task x).state) (affinity : (g (s.task x)).affinity = (s.task x).affinity)
    (wait : (g (s.task x)).wait = (s.task x).wait)
    (redecidable : Occupancy.Redecidable { (s.port p).occ with disposition := some e })
    (waits : (s.task x).wait.isSome ↔ e = .wait) (doomed : (g (s.task x)).doomed = true ↔ e = .free) :
    ((s.updTask x g).setDisposition p e).Revising p away := by
  have running := h.dispatcher.states_occupant o
  have port (q : Port) : ((s.updTask x g).setDisposition p e).port q =
      if p = q then { s.port p with occ := { (s.port p).occ with disposition := some e } } else s.port q := by
    rw [State.setDisposition_port]
    simp only [State.updTask_port]
  have here := (port p).trans (if_pos rfl)
  have there (q : Port) (ne : p ≠ q) := (port q).trans (if_neg ne)
  have leaving := h.dispatcher.leaving_revised o here there
  have self : ((s.updTask x g).setDisposition p e).task x = g (s.task x) := by simp
  have same : ((s.updTask x g).setDisposition p e).states x = s.states x := by rw [State.states, self]; exact state
  refine h.revise here there (fun l => by simp) (fun u ne => by simp [State.updTask_task_ne _ _ ne.symm]) same
    (by rw [self]; exact affinity) (by rw [running]; simp) (fun q ne => h.dispatcher.occupant_not_next o ne) (.inr o) redecidable
    ⟨?_, ?_⟩ (((BooksKept.updTask wait fun k => state ▸ k).trans (.setDisposition _ p e)).books h.books)
  · rw [self, wait, same, running, leaving, waits]
    simp
  · rw [self, leaving, doomed]
    simp

theorem State.Lawful.redispose (h : s.Lawful) (o : (s.port p).occ.occupant = some x) {g : TaskRecord → TaskRecord}
    {e : Disposition} (state : (g (s.task x)).state = (s.task x).state) (affinity : (g (s.task x)).affinity = (s.task x).affinity)
    (wait : (g (s.task x)).wait = (s.task x).wait)
    (redecidable : Occupancy.Redecidable { (s.port p).occ with disposition := some e })
    (waits : (s.task x).wait.isSome ↔ e = .wait) (doomed : (g (s.task x)).doomed = true ↔ e = .free) :
    (redecide p false ((s.updTask x g).setDisposition p e)).Lawful :=
  (h.sound.redispose o state affinity wait redecidable waits doomed).redecide_lawful
    (((BooksKept.updTask wait fun k => state ▸ k).trans (.setDisposition _ p e)).rested h.rested)

theorem State.updTask_id (s : State) (t : Slot) : s.updTask t id = s := by simp [State.updTask, State.task]

/-- The wait and the doom of an occupant are told by its disposition. -/
theorem State.Sound.occupant_record (h : s.Sound away) (o : (s.port p).occ.occupant = some x) :
    ((s.task x).wait.isSome ↔ (s.port p).occ.disposition = some .wait) ∧
      ((s.task x).doomed = true ↔ (s.port p).occ.disposition = some .free) :=
  h.dispatcher.occupant_record o (h.records x)

/-! ### An incoming that is taken out of its offer -/

/-- A SELECTED task leaves its offer, whatever its record says now, and the port is re-decided (R24, R58). -/
theorem State.Sound.gone (h : s.Sound away) (incoming : s.isIncoming p t = true) {g : TaskRecord → TaskRecord}
    (priority : (g (s.task t)).priority = (s.task t).priority) (affinity : (g (s.task t)).affinity = (s.task t).affinity)
    (wait : (g (s.task t)).wait = (s.task t).wait) (live : (g (s.task t)).state = .free → (s.task t).state = .free)
    (not_ready : (g (s.task t)).state ≠ .ready) :
    (redecide p true (s.updTask t g)).Limbo (· = t) away ∧ Dispatches Nobody (s.updTask t g) (redecide p true (s.updTask t g)) := by
  have selected := (h.dispatcher.arranged.incomings t).2 ⟨p, incoming⟩
  have incoming' : (s.updTask t g).isIncoming p t = true := by rw [State.updTask_isIncoming]; exact incoming
  have states : (s.updTask t g).states t ≠ .ready := by rw [State.updTask_states, moveTo_self]; exact not_ready
  have revising : (s.updTask t g).Redeciding p true s.states := by
    have port := s.updTask_port t g
    refine ⟨h.dispatcher.arranged.updTask priority, fun u => ?_, fun q _ => by rw [port]; exact h.dispatcher.fits q,
      by rw [port]; exact (h.dispatcher.fits p).quiet, by rw [port]; exact (h.dispatcher.fits p).continues,
      by rw [port]; exact (h.dispatcher.fits p).redecidable⟩
    by_cases e : u = t
    · rw [e]; exact .inr ⟨rfl, incoming'⟩
    · rw [State.updTask_states, moveTo_ne _ _ e]; exact .inl rfl
  obtain ⟨but, work, urgent⟩ := redecide_gone revising incoming' states
  refine ⟨⟨fun q => (work.frame.port q).lawful (by rw [State.updTask_port]; exact h.ports q),
    ⟨_, but.arranged, fun u e => by rw [e, moveTo_self]; exact away_held, fun u e => moveTo_ne _ _ e⟩, but.fits,
    fun q => (urgent (fun r _ => ?_) q).mono fun _ => False.elim, work.affinityLaw fun q u hp => ?_,
    fun u e => work.recordLaw False.elim ((h.records u).updTask_ne e),
    work.frame.booksKept.books ((BooksKept.updTask wait live).books h.books)⟩, work⟩
  · exact (State.urgencyLaw_iff.1 h.urgency r).updTask priority affinity fun e => absurd e not_ready
  · rw [State.updTask_port, State.updTask_isIncoming] at hp
    have permits := h.affinity q u hp
    rw [State.updTask_task]
    split
    · next e => subst e; rw [affinity]; exact permits
    · exact permits

/-! ### Passing the port on (R40, R61) -/

/-- The port passes to a READY task of the occupant's own priority. -/
theorem State.Lawful.passPort (h : s.Lawful) (o : (s.port p).occ.occupant = some x) (next : s.next p = some x)
    (stays : (s.port p).occ.disposition = none ∨ (s.port p).occ.disposition = some .stay)
    (peer : s.FirstEligible p (s.task x).priority f) : (offerTask p f (s.setDisposition p .readyTail)).Lawful := by
  have running := h.dispatcher.states_occupant o
  obtain ⟨before, after, queue, eligible, -⟩ := peer
  have eligible := (eligible_iff s p f).2 eligible
  obtain ⟨permits, enabled⟩ := State.eligible_spec.1 eligible
  obtain ⟨ready, priority⟩ := h.dispatcher.arranged.mem_queue.1
    (show f ∈ s.queue (s.task x).priority by rw [queue]; simp)
  have none_incoming (u : Slot) : s.isIncoming p u = false := by
    refine Bool.eq_false_iff.2 fun i => ?_
    have e := (State.next_of_isIncoming i).symm.trans next
    cases e
    rw [(h.dispatcher.arranged.incomings _).2 ⟨p, i⟩] at running
    cases running
  have work : Dispatches Nobody s (offerTask p f (s.setDisposition p .readyTail)) := by
    refine (setDisposition_dispatches (.inl (by rw [o]; simp)) (by simp [Disposition.Leaves]) fun e l k => ?_).trans
      (offerTask_dispatches (by simpa [PortRecord.isEnabled] using enabled) (by rw [setDisposition_states]; exact ready)
        (by rw [State.setDisposition_task]; exact permits))
    rcases stays with d | d
    · rw [d] at k; cases k
    · rw [d] at k; cases k; simp [Disposition.Leaves] at l
  refine h.dispatches work (State.dispatcherLaw_iff.2 ⟨?_, ?_⟩) (State.urgencyLaw_iff.2 fun q => ?_)
  · have arranged := (h.dispatcher.arranged.setDisposition p .readyTail).offerTask p ready
    rw [State.vacated_eq_self (fun u => (setDisposition_isIncoming ..).trans (none_incoming u))] at arranged
    rw [offerTask_states, setDisposition_states]
    exact arranged
  · refine offerTask_fits (by simpa [PortRecord.isEnabled] using enabled) ?_ ?_ fun q ne => setDisposition_fits_ne ne (h.dispatcher.fits q)
    · rw [setDisposition_disposition, if_pos rfl, setDisposition_occupant, o]; simp
    · rw [setDisposition_disposition, if_pos rfl]; simp
  · refine (State.urgencyLaw_iff.1 h.urgency q).of_frame work.frame ?_ fun u r _ => ?_
    · rw [work.frame.urgency, offerTask_next]
      split
      · next e =>
        subst e
        rw [next, State.urgency, State.urgency, priority]
      · rw [setDisposition_next]
    · rw [offerTask_states, setDisposition_states, moveTo] at r
      split at r
      · cases r
      · exact r

end

end Sys2Proof.Machine

/-! ## Each task command keeps the laws: hold, release, priority, affinity, yield (R17 to R20, R40) -/

namespace Sys2Proof.Machine

section
variable {s s' : State} {away : Slot → Prop} {p : Port} {x t f : Slot}

/-- A RUNNING task is the occupant of the port that the model finds. -/
theorem State.DispatcherLaw.exists_portOfOccupant (h : s.DispatcherLaw) (running : s.states t = .running) :
    ∃ p, s.portOfOccupant t = some p ∧ (s.port p).occ.occupant = some t := by
  obtain ⟨p, o⟩ := (h.arranged.occupants t).1 running
  exact ⟨p, h.portOfOccupant o, o⟩

/-- A SELECTED task is the incoming of the port that the model finds. -/
theorem State.DispatcherLaw.exists_portOfIncoming (h : s.DispatcherLaw) (selected : s.states t = .selected) :
    ∃ p, s.portOfIncoming t = some p ∧ s.isIncoming p t = true := by
  obtain ⟨p, i⟩ := (h.arranged.incomings t).1 selected
  refine ⟨p, portOfIncoming_of_incomingOn ⟨i, Bool.eq_false_iff.2 fun i' => ?_⟩, i⟩
  have := h.arranged.oneIncoming t p (otherPort p) i i'
  cases p <;> cases this

/-! ### Hold (R17) -/

theorem holdTask_lawful (h : s.Lawful) (t : Slot) : (holdTask t s).state.Lawful := by
  have flag : (setHoldFlag t s).Lawful := h.updTask rfl rfl rfl rfl rfl
  cases state : (s.task t).state with
  | free => simpa only [holdTask, state, refuse_state] using h
  | dormant => simpa only [holdTask, state, refuse_state] using h
  | held => simpa only [holdTask, state, refuse_state] using h
  | ready =>
    simp only [holdTask, state]
    have limbo := h.sound.unqueue (t := t) state
    have kept := BooksKept.updTask (s := unqueue t s) (t := t)
      (f := fun r => { r with state := .held, holdFlag := false, holdCause := some .command }) rfl fun e => by cases e
    have held : (becomeHeld t (unqueue t s)).Limbo (· = t) Nobody := limbo.updTask rfl (kept.books limbo.books)
    have task : (becomeHeld t (unqueue t s)).task t =
        { s.task t with state := .held, holdFlag := false, holdCause := some .command } := State.updTask_task_self ..
    have ready : s.states t = .ready := state
    have wait := h.sound.no_wait (t := t) (by rw [ready]; simp) (by rw [ready]; simp)
    refine State.lawful_iff.2 ⟨held.sound (by rw [State.states, task]; exact away_held) (held.recordLaw rfl ?_ ?_),
      ((unqueue_frame t s).booksKept.trans kept).rested h.rested⟩
    · rw [State.states, task]; simp [wait]
    · rw [task]; exact h.sound.not_doomed (by rw [ready]; simp)
  | selected =>
    obtain ⟨p, found, incoming⟩ := h.dispatcher.exists_portOfIncoming (t := t) state
    simp only [holdTask, state, found]
    have selected : s.states t = .selected := state
    obtain ⟨limbo, work⟩ := h.sound.gone incoming (g := fun r => { r with state := .held, holdFlag := false, holdCause := some .command })
      rfl rfl rfl (fun e => by cases e) (by simp)
    have held : (s.updTask t fun r => { r with state := .held, holdFlag := false, holdCause := some .command }).states t = .held := by
      rw [State.updTask_states, moveTo_self]
    have place := work.states_eq (t := t) (by rw [held]; simp) (by rw [held]; simp)
    have kept := BooksKept.updTask (s := s) (t := t)
      (f := fun r => { r with state := .held, holdFlag := false, holdCause := some .command }) rfl fun e => by cases e
    have wait := h.sound.no_wait (t := t) (by rw [selected]; simp) (by rw [selected]; simp)
    refine State.lawful_iff.2 ⟨limbo.sound (by rw [place, held]; exact away_held) (limbo.recordLaw rfl ?_ ?_),
      (kept.trans work.frame.booksKept).rested h.rested⟩
    · rw [place, held, work.frame.wait, kept.wait, wait]; simp
    · rw [work.frame.doomed, State.updTask_task_self]
      exact h.sound.not_doomed (by rw [selected]; simp)
  | waiting =>
    simp only [holdTask, state]
    split
    · exact h
    · exact flag
  | running =>
    obtain ⟨p, found, o⟩ := h.dispatcher.exists_portOfOccupant (t := t) state
    obtain ⟨waits, doomed⟩ := h.sound.occupant_record o
    have hold (no_wait : (s.port p).occ.disposition ≠ some .wait) (no_free : (s.port p).occ.disposition ≠ some .free) :
        (holdOccupant p t s).Lawful :=
      h.redispose (g := fun r => { r with holdCause := some .command }) o rfl rfl rfl
        (PortRecord.redecidable_leaving (.inr (.inl rfl)) (by rw [o]; simp))
        (iff_of_false (by rw [waits]; exact no_wait) (by simp)) (iff_of_false (by rw [doomed]; exact no_free) (by simp))
    simp only [holdTask, state, found]
    cases d : (s.port p).occ.disposition with
    | none => exact hold (by rw [d]; simp) (by rw [d]; simp)
    | some d' =>
      cases d' with
      | readyHead => exact hold (by rw [d]; simp) (by rw [d]; simp)
      | readyTail => exact hold (by rw [d]; simp) (by rw [d]; simp)
      | stay => exact hold (by rw [d]; simp) (by rw [d]; simp)
      | wait =>
        simp only
        split
        · exact h
        · exact flag
      | held => exact h
      | free => exact h

/-! ### Release (R18) -/

theorem releaseTask_lawful (h : s.Lawful) (t : Slot) : (releaseTask t s).state.Lawful := by
  have clear : (clearHoldFlag t s).Lawful := h.updTask rfl rfl rfl rfl rfl
  cases state : (s.task t).state with
  | free => simpa only [releaseTask, state, refuse_state] using h
  | dormant => simpa only [releaseTask, state, refuse_state] using h
  | ready => simpa only [releaseTask, state, refuse_state] using h
  | selected => simpa only [releaseTask, state, refuse_state] using h
  | held =>
    simp only [releaseTask, state]
    have held : s.states t = .held := state
    have kept := BooksKept.updTask (s := s) (t := t) (f := fun r => { r with holdCause := none }) rfl id
    have limbo := (h.sound.limbo (t := t) (by rw [held]; exact away_held)).updTask rfl (kept.books h.sound.books)
    refine limbo.readyTail_lawful (kept.rested h.rested) ?_ ?_
    · rw [kept.wait]; exact h.sound.no_wait (by rw [held]; simp) (by rw [held]; simp)
    · rw [State.updTask_task_self]; exact h.sound.not_doomed (by rw [held]; simp)
  | waiting =>
    simp only [releaseTask, state]
    split
    · exact clear
    · exact h
  | running =>
    obtain ⟨p, found, o⟩ := h.dispatcher.exists_portOfOccupant (t := t) state
    obtain ⟨waits, doomed⟩ := h.sound.occupant_record o
    simp only [releaseTask, state, found]
    cases d : (s.port p).occ.disposition with
    | none => exact h
    | some d' =>
      cases d' with
      | held =>
        obtain ⟨⟨f, hf, switch⟩, occupied⟩ := (h.dispatcher.fits p).switch d (by simp)
        exact h.redispose (g := fun r => { r with holdCause := none }) o rfl rfl rfl
          (PortRecord.redecidable_switch hf switch occupied (by simp))
          (iff_of_false (by rw [waits, d]; simp) (by simp)) (iff_of_false (by rw [doomed, d]; simp) (by simp))
      | wait =>
        simp only
        split
        · exact clear
        · exact h
      | readyHead => exact h
      | readyTail => exact h
      | free => exact h
      | stay => exact h

/-! ### Yield (R40) and the slice (R61) -/

theorem yieldPort_lawful (h : s.Lawful) (caller : s.IsCaller p x) : (yieldPort p x s).Lawful := by
  have o := caller.occupant
  obtain ⟨waits, doomed⟩ := h.sound.occupant_record o
  unfold yieldPort
  cases peer : s.firstPeer p x with
  | none => exact h
  | some f =>
    have first := firstPeer_eq_some.1 peer
    simp only
    have next (none_switch : ∀ g, (s.port p).occ.offer = some g → g.kind ≠ .switchTask) : s.next p = some x := by
      unfold State.next
      cases g : (s.port p).occ.offer with
      | none => exact o
      | some g' =>
        refine ((h.dispatcher.fits p).continues g' g ?_).trans o
        cases k : g'.kind with
        | continueTask => rfl
        | switchTask => exact absurd k (none_switch g' g)
    cases d : (s.port p).occ.disposition with
    | none =>
      refine h.passPort o (next fun g hg => ?_) (.inl d) first
      have := (h.dispatcher.fits p).disposition.1
      simp [d, hg, o] at this
    | some d' =>
      cases d' with
      | stay =>
        refine h.passPort o (next fun g hg k => ?_) (.inr d) first
        have := ((h.dispatcher.fits p).disposition.2 g hg).1 d
        rw [k] at this
        cases this.1
      | readyHead =>
        obtain ⟨⟨f, hf, switch⟩, occupied⟩ := (h.dispatcher.fits p).switch d (by simp)
        have := h.redispose (g := id) (e := .readyTail) o rfl rfl rfl (PortRecord.redecidable_switch hf switch occupied (by simp))
          (iff_of_false (by rw [waits, d]; simp) (by simp)) (iff_of_false (by rw [id, doomed, d]; simp) (by simp))
        rwa [State.updTask_id] at this
      | readyTail => exact h
      | wait => exact h
      | held => exact h
      | free => exact h

theorem countQuantum_lawful (h : s.Lawful) (p : Port) : (countQuantum p s).Lawful := by
  unfold countQuantum
  split
  · next counted =>
    cases o : (s.port p).occ.occupant with
    | none => exact h
    | some x =>
      simp only
      have settled : (s.port p).occ.offer = none := by
        unfold State.counted at counted
        split at counted
        · assumption
        · cases counted
      have counted : (s.updTask x fun r => { r with remaining := r.remaining - 1 }).Lawful := h.updTask rfl rfl rfl rfl rfl
      split
      · unfold sliceExpired
        split
        · next f peer =>
          refine counted.passPort (x := x) (by rw [State.updTask_port]; exact o) ?_ (.inl ?_) (firstPeer_eq_some.1 peer)
          · rw [State.updTask_next, State.next, settled]; exact o
          · rw [State.updTask_port]
            have := (h.dispatcher.fits p).disposition.1
            simpa [settled] using this
        · exact counted.updTask rfl rfl rfl rfl rfl
      · exact counted
  · exact h

/-! ### Affinity (R20) -/

theorem setAffinity_lawful (h : s.Lawful) (t : Slot) (a : Affinity) : (setAffinity t a s).state.Lawful := by
  have apart (outside : (s.states t).Away) : (s.updTask t fun r => { r with affinity := a }).Lawful :=
    h.updTask_away outside outside rfl .rfl (h.sound.not_doomed outside.2.1) id
  cases state : (s.task t).state with
  | free => simpa only [setAffinity, state, refuse_state, done_state] using apart (by rw [State.states, state]; simp [TaskState.Away])
  | dormant => simpa only [setAffinity, state, refuse_state, done_state] using apart (by rw [State.states, state]; simp [TaskState.Away])
  | waiting => simpa only [setAffinity, state, refuse_state, done_state] using apart (by rw [State.states, state]; simp [TaskState.Away])
  | held => simpa only [setAffinity, state, refuse_state, done_state] using apart (by rw [State.states, state]; simp [TaskState.Away])
  | running => simpa only [setAffinity, state, refuse_state, done_state] using h
  | selected => simpa only [setAffinity, state, refuse_state, done_state] using h
  | ready =>
    simp only [setAffinity, state]
    have ready : s.states t = .ready := state
    split
    · next same => exact h.updTask (g := fun r => { r with affinity := a }) rfl rfl same.symm rfl rfl
    · have kept := BooksKept.updTask (s := s) (t := t) (f := fun r => { r with affinity := a }) rfl id
      have states : (s.updTask t fun r => { r with affinity := a }).states = s.states :=
        State.updTask_states_eq rfl
      have dispatcher : (s.updTask t fun r => { r with affinity := a }).DispatcherLaw :=
        State.dispatcherLaw_iff.2 ⟨by rw [states]; exact h.dispatcher.arranged.updTask rfl,
          fun p => by rw [State.updTask_port]; exact h.dispatcher.fits p⟩
      have ready' : (s.updTask t fun r => { r with affinity := a }).states t = .ready := by rw [states]; exact ready
      have work := place_dispatches dispatcher ready'
      have urgency (y : Option Slot) : (s.updTask t fun r => { r with affinity := a }).urgency y = s.urgency y := by
        cases y with
        | none => rfl
        | some y => rw [State.urgency, State.urgency, State.updTask_task]; split <;> simp_all
      refine State.lawful_iff.2 ⟨⟨fun p => (work.frame.port p).lawful (by rw [State.updTask_port]; exact h.ports p),
        place_dispatcher dispatcher ready', place_urgent dispatcher ready' fun p u r ne e => ?_, work.affinityLaw fun p u hp => ?_,
        fun u => work.recordLaw False.elim ?_, work.frame.booksKept.books (kept.books h.sound.books)⟩,
        (kept.trans work.frame.booksKept).rested h.rested⟩
      · rw [states] at r
        rw [urgency, urgency, State.updTask_next]
        refine State.urgencyLaw_iff.1 h.urgency p u r id ?_
        simpa only [State.eligible, State.updTask_port, State.updTask_task_ne _ _ (Ne.symm ne)] using e
      · rw [State.updTask_port, State.updTask_isIncoming] at hp
        have ne : u ≠ t := by
          rintro rfl
          rcases hp with o | i
          · rw [h.dispatcher.states_occupant o] at ready; cases ready
          · rw [(h.dispatcher.arranged.incomings u).2 ⟨p, i⟩] at ready; cases ready
        rw [State.updTask_task_ne _ _ ne.symm]
        exact h.affinity p u hp
      · by_cases e : u = t
        · rw [e]
          exact (h.sound.records t).congr (by rw [kept.wait]) (by rw [State.updTask_task_self]) (by rw [states])
            fun _ _ => State.Leaving.updTask
        · exact (h.sound.records u).updTask_ne e

end

end Sys2Proof.Machine

/-! ## A new priority keeps the laws (R19, R83, R106) -/

namespace Sys2Proof.Machine

section
variable {s s' : State} {v away : Slot → Prop} {p : Port} {x t : Slot} {l : WaitList}

/-! ### A waiter that takes a new position -/

theorem rejoin_perm (s : State) (t : Slot) (l : List Slot) : (rejoin s t l).Perm l := by
  unfold rejoin
  split
  · next mem => exact (insertWaiter_perm s .urgency t _).trans (List.perm_cons_erase mem).symm
  · exact .refl l

theorem updMailbox_entries_perm {y : Fin 16} {f : Mailbox → Mailbox} (receivers : ∀ b, (f b).receivers.Perm b.receivers)
    (senders : ∀ b, (f b).senders.Perm b.senders) (l : WaitList) : ((s.updMailbox y f).entries l).Perm (s.entries l) := by
  by_cases here : l = .receivers y ∨ l = .senders y
  · rcases here with rfl | rfl
    · simp only [State.entries, updMailbox_exchange, if_true]
      cases (s.exchange y).state with
      | message o b => exact receivers b
      | closed => exact .refl _
      | count o c => exact .refl _
    · simp only [State.entries, updMailbox_exchange, if_true]
      cases (s.exchange y).state with
      | message o b => exact senders b
      | closed => exact .refl _
      | count o c => exact .refl _
  · obtain ⟨no_receivers, no_senders⟩ := not_or.1 here
    rw [updMailbox_entries (fun e => absurd e no_receivers) fun e => absurd e no_senders]

theorem updCounter_entries_perm {y : Fin 16} {f : Counter → Counter} (acquirers : ∀ c, (f c).acquirers.Perm c.acquirers)
    (l : WaitList) : ((s.updCounter y f).entries l).Perm (s.entries l) := by
  by_cases here : l = .acquirers y
  · subst here
    simp only [State.entries, updCounter_exchange, if_true]
    cases (s.exchange y).state with
    | count o c => exact acquirers c
    | closed => exact .refl _
    | message o b => exact .refl _
  · rw [updCounter_entries fun e => absurd e here]

/-- A waiter that takes a new position leaves everything but the order of one list. -/
theorem repositionWaiter_spec (t : Slot) (s : State) : ListsOnly s (repositionWaiter t s) ∧
    (∀ l, ((repositionWaiter t s).entries l).Perm (s.entries l)) ∧ (repositionWaiter t s).pool = s.pool := by
  have same : ListsOnly s s ∧ (∀ l, (s.entries l).Perm (s.entries l)) ∧ s.pool = s.pool := ⟨.refl s, fun _ => .refl _, rfl⟩
  cases e : (s.task t).wait with
  | none => simpa only [repositionWaiter, e] using same
  | some w =>
    cases k : w.kind with
    | delay => simpa only [repositionWaiter, e, k] using same
    | event l => simpa only [repositionWaiter, e, k] using same
    | pages n => simpa only [repositionWaiter, e, k] using same
    | recv id low high =>
      cases i : exchangeIndex id with
      | none => simpa only [repositionWaiter, e, k, i] using same
      | some y =>
        simp only [repositionWaiter, e, k, i]
        split
        · exact ⟨updMailbox_listsOnly s y fun b => ⟨_, _, rfl⟩,
            updMailbox_entries_perm (fun b => rejoin_perm s t _) fun b => .refl _, by simp⟩
        · exact same
    | send id m =>
      cases i : exchangeIndex id with
      | none => simpa only [repositionWaiter, e, k, i] using same
      | some y =>
        simp only [repositionWaiter, e, k, i]
        split
        · exact ⟨updMailbox_listsOnly s y fun b => ⟨_, _, rfl⟩,
            updMailbox_entries_perm (fun b => .refl _) fun b => rejoin_perm s t _, by simp⟩
        · exact same
    | acquire id =>
      cases i : exchangeIndex id with
      | none => simpa only [repositionWaiter, e, k, i] using same
      | some y =>
        simp only [repositionWaiter, e, k, i]
        split
        · exact ⟨updCounter_listsOnly s y fun b => ⟨_, rfl⟩, updCounter_entries_perm fun b => rejoin_perm s t _, by simp⟩
        · exact same

/-- The laws do not read the order of the lists, the page-wait queue apart. -/
theorem State.Lawful.reorder (h : s.Lawful) (only : ListsOnly s s') (perm : ∀ l, (s'.entries l).Perm (s.entries l))
    (pool : s'.pool = s.pool) : s'.Lawful := by
  have books := h.sound.books
  have empty {l : WaitList} (ne : s'.entries l ≠ []) : s.entries l ≠ [] := fun e => ne (List.perm_nil.1 (e ▸ perm l))
  have waits (u : Slot) (l : WaitList) : s'.waitsIn u l ↔ s.waitsIn u l := by simp only [State.waitsIn, only.task]
  refine State.lawful_iff.2 ⟨h.sound.change only.port only.queue only.task
    { lists := ⟨fun l => (perm l).nodup_iff.2 (books.lists.nodup l), fun l u => ?_, fun u w e =>
        State.Valid.relist only.generation only.exchange (books.lists.valid u w (only.task u ▸ e))⟩
      filters := fun y b' e m hm u hu => ?_
      cells := books.cells.relist only.freeCells only.exchange
      lines := fun l => ?_
      ticks := by rw [only.time]; exact books.ticks
      timers := by simpa only [State.TimerLaw, only.time, only.task] using books.timers
      pool := books.pool.congr (by rw [pool]) fun u e => by rwa [State.states, only.task] at e },
    fun y => (only.exchange y).lawful (h.exchanges y) (fun ne o b e => (h.exchanges y).full (empty (l := .senders y) ne) e)
      fun ne o c e => (h.exchanges y).empty (empty (l := .acquirers y) ne) e,
    by simpa only [State.TimerOrder, only.time] using h.timerOrder,
    h.headBlocked.congr (by rw [pool]) fun u hu => ⟨by rwa [pool] at hu, by rw [only.task]⟩⟩
  · rw [(perm l).mem_iff, waits]
    exact books.lists.mem l u
  · obtain ⟨o, e⟩ := State.mailbox_eq_some.1 e
    obtain ⟨b, e', queue, -⟩ := (only.exchange y).of_message e
    have entry : u ∈ s'.entries (.receivers y) := by rw [State.entries, e]; exact hu
    rw [(perm _).mem_iff, State.entries, e'] at entry
    simp only [State.filterMatches, only.task]
    exact books.filters y b (State.mailbox_eq_some.2 ⟨o, e'⟩) m (queue ▸ hm) u entry
  · rw [only.line l]
    exact ⟨(books.lines l).1, fun ne => (books.lines l).2 (empty (l := .line l) ne)⟩

theorem repositionWaiter_lawful (h : s.Lawful) (t : Slot) : (repositionWaiter t s).Lawful := by
  obtain ⟨only, perm, pool⟩ := repositionWaiter_spec t s
  exact h.reorder only perm pool

/-! ### The new priority of a task on a port -/

/-- The record with a new priority. -/
def State.ranked (s : State) (t : Slot) (priority : Fin 32) : State := s.updTask t fun r => { r with priority := priority }

variable {priority : Fin 32}

theorem State.ranked_booksKept (s : State) (t : Slot) (priority : Fin 32) : BooksKept s (s.ranked t priority) :=
  BooksKept.updTask rfl id

theorem State.ranked_urgentOn (h : s.UrgentOn p v) (not_ready : s.states t ≠ .ready)
    (le : s.next p = some t → priority ≤ (s.task t).priority) : (s.ranked t priority).UrgentOn p v := by
  have states : (s.ranked t priority).states = s.states := State.updTask_states_eq rfl
  intro u r k e
  rw [states] at r
  have ne : u ≠ t := by rintro rfl; exact not_ready r
  have task : (s.ranked t priority).task u = s.task u := State.updTask_task_ne _ _ ne.symm
  have before : s.urgency (s.next p) ≤ s.urgency (some u) := by
    refine h u r k ?_
    rwa [State.eligible, task, show (s.ranked t priority).port p = s.port p from State.updTask_port ..] at e
  rw [State.urgency, task]
  refine le_trans ?_ before
  rw [State.ranked, State.updTask_next]
  cases n : s.next p with
  | none => rfl
  | some y =>
    rw [State.urgency, State.urgency, State.updTask_task]
    split
    · next same => exact same ▸ le (same ▸ n)
    · exact le_rfl

/-- The occupant or the incoming of a port has a new priority, and the port is about to be re-decided. -/
theorem State.Sound.ranked_revising (h : s.Sound away) (not_ready : s.states t ≠ .ready)
    (next : ∀ q, p ≠ q → s.next q ≠ some t) : (s.ranked t priority).Revising p away := by
  have port := s.updTask_port t fun r => { r with priority := priority }
  have states : (s.ranked t priority).states = s.states := State.updTask_states_eq rfl
  have self : (s.ranked t priority).task t = { s.task t with priority := priority } := State.updTask_task_self ..
  exact h.revise (port p) (fun q _ => port q) (fun _ => rfl) (fun u ne => State.updTask_task_ne _ _ ne.symm) (by rw [states])
    (by rw [self]) not_ready next (.inl rfl) (h.dispatcher.fits p).redecidable
    ((h.records t).congr (by rw [self]) (by rw [self]) (by rw [states]) fun _ _ => State.Leaving.updTask)
    ((s.ranked_booksKept t priority).books h.books)

theorem State.Lawful.ranked_redecide (h : s.Lawful) (not_ready : s.states t ≠ .ready) (next : ∀ q, p ≠ q → s.next q ≠ some t) :
    (redecide p false (s.ranked t priority)).Lawful :=
  (h.sound.ranked_revising not_ready next).redecide_lawful ((s.ranked_booksKept t priority).rested h.rested)

theorem State.Lawful.ranked (h : s.Lawful) (not_ready : s.states t ≠ .ready) (next : ∀ q, p ≠ q → s.next q ≠ some t)
    (le : s.next p = some t → priority ≤ (s.task t).priority) : (s.ranked t priority).Lawful :=
  State.lawful_iff.2 ⟨(h.sound.ranked_revising not_ready next).sound
    (by rw [State.ranked, State.updTask_port]; exact h.dispatcher.fits p)
    (State.ranked_urgentOn (State.urgencyLaw_iff.1 h.urgency p) not_ready le), (s.ranked_booksKept t priority).rested h.rested⟩

/-- In a SWITCH offer the occupant is not next. -/
theorem State.DispatcherLaw.departing_not_next (h : s.DispatcherLaw) (o : (s.port p).occ.occupant = some t) {d : Disposition}
    (departs : (s.port p).occ.disposition = some d) (ne : d ≠ .stay) : s.next p ≠ some t := fun e => by
  obtain ⟨⟨f, hf, switch⟩, -⟩ := (h.fits p).switch departs ne
  have incoming : s.isIncoming p t = true := by
    rw [State.next, hf] at e
    rw [State.isIncoming, hf]
    simp [switch, show f.incoming = some t from e]
  have running := h.states_occupant o
  rw [(h.arranged.incomings t).2 ⟨p, incoming⟩] at running
  cases running

theorem setpriOccupant_lawful (h : s.Lawful) (o : (s.port p).occ.occupant = some t) :
    (setpriOccupant p t (decide ((s.task t).priority < priority)) (s.ranked t priority)).Lawful := by
  have running := h.dispatcher.states_occupant o
  have not_ready : s.states t ≠ .ready := by rw [running]; simp
  have next (q : Port) (ne : p ≠ q) := h.dispatcher.occupant_not_next o ne
  have port : (s.ranked t priority).port p = s.port p := State.updTask_port ..
  obtain ⟨waits, doomed⟩ := h.sound.occupant_record o
  unfold setpriOccupant
  rw [port]
  cases d : (s.port p).occ.disposition with
  | none =>
    simp only
    split
    · exact h.ranked_redecide not_ready next
    · next more_urgent => exact h.ranked not_ready next fun _ => by simpa using more_urgent
  | some d' =>
    have departing (ne : d' ≠ .stay) : (s.ranked t priority).Lawful :=
      h.ranked not_ready next fun e => absurd e (h.dispatcher.departing_not_next o d ne)
    have tail (ne : d' ≠ .stay) (no_wait : d' ≠ .wait) (no_free : d' ≠ .free) :
        (redecide p false ((s.ranked t priority).setDisposition p .readyTail)).Lawful := by
      obtain ⟨⟨f, hf, switch⟩, occupied⟩ := (h.dispatcher.fits p).switch d ne
      exact h.redispose (g := fun r => { r with priority := priority }) o rfl rfl rfl
        (PortRecord.redecidable_switch hf switch occupied (by simp))
        (iff_of_false (by rw [waits, d]; simpa using no_wait) (by simp))
        (iff_of_false (by rw [doomed, d]; simpa using no_free) (by simp))
    cases d' with
    | readyHead => exact tail (by simp) (by simp) (by simp)
    | readyTail => exact tail (by simp) (by simp) (by simp)
    | stay => exact h.ranked_redecide not_ready next
    | wait => exact repositionWaiter_lawful (departing (by simp)) t
    | held => exact departing (by simp)
    | free => exact departing (by simp)

/-! ### TASK.SETPRI (R19) -/

theorem setPriority_lawful (h : s.Lawful) (t : Slot) (priority : Fin 32) : (setPriority t priority s).Lawful := by
  have apart (outside : (s.states t).Away) : (s.ranked t priority).Lawful :=
    h.updTask_away outside outside rfl .rfl (h.sound.not_doomed outside.2.1) id
  unfold setPriority
  simp only
  split
  · exact h
  · cases state : (s.task t).state with
    | free => exact apart (by rw [State.states, state]; simp [TaskState.Away])
    | dormant => exact apart (by rw [State.states, state]; simp [TaskState.Away])
    | held => exact apart (by rw [State.states, state]; simp [TaskState.Away])
    | waiting => exact repositionWaiter_lawful (apart (by rw [State.states, state]; simp [TaskState.Away])) t
    | ready =>
      have ready : s.states t = .ready := state
      have limbo := h.sound.unqueue ready
      have kept := (unqueue_frame t s).booksKept.trans ((unqueue t s).ranked_booksKept t priority)
      refine (limbo.updTask rfl (kept.books h.sound.books)).readyTail_lawful (kept.rested h.rested) ?_ ?_
      · exact (kept.wait t).trans (h.sound.no_wait (by rw [ready]; simp) (by rw [ready]; simp))
      · rw [State.updTask_task_self]; exact h.sound.not_doomed (by rw [ready]; simp)
    | selected =>
      obtain ⟨p, found, incoming⟩ := h.dispatcher.exists_portOfIncoming (t := t) state
      have not_ready : s.states t ≠ .ready := by rw [State.states, state]; simp
      have next (q : Port) (ne : p ≠ q) := h.dispatcher.incoming_not_next incoming ne
      simp only [found]
      split
      · exact h.ranked_redecide not_ready next
      · next more_urgent => exact h.ranked not_ready next fun _ => by simpa using more_urgent
    | running =>
      obtain ⟨p, found, o⟩ := h.dispatcher.exists_portOfOccupant (t := t) state
      simp only [found]
      exact setpriOccupant_lawful h o

end

end Sys2Proof.Machine

/-! ## Creation, start, deletion and exit keep the laws (R12 to R16, R24) -/

namespace Sys2Proof.Machine

section
variable {s s' : State} {v away away' : Slot → Prop} {p : Port} {x t : Slot}

theorem nextGeneration_lawful (h : s.Lawful) (t : Slot) : (nextGeneration t s).Lawful := h.updTask rfl rfl rfl rfl rfl

/-! ### Creation and start (R12, R13) -/

/-- A FREE slot becomes a DORMANT task with no wait. -/
theorem State.Lawful.create (h : s.Lawful) (free : s.states t = .free) {g : TaskRecord → TaskRecord}
    (state : (g (s.task t)).state = .dormant) (wait : (g (s.task t)).wait = none) (doomed : (g (s.task t)).doomed = false) :
    (s.updTask t g).Lawful := by
  refine h.updTask_away (by rw [free]; simp [TaskState.Away]) (by rw [state]; simp [TaskState.Away]) ?_
    (by rw [state, free]; simp) doomed fun e => by rw [state] at e; cases e
  rw [wait, h.sound.no_wait (by rw [free]; simp) (by rw [free]; simp)]

theorem readyTail_lawful (h : s.Lawful) (dormant : s.states t = .dormant) : (readyTail t s).Lawful :=
  (h.sound.limbo (t := t) (by rw [dormant]; simp [TaskState.Away])).readyTail_lawful h.rested
    (h.sound.no_wait (by rw [dormant]; simp) (by rw [dormant]; simp)) (h.sound.not_doomed (by rw [dormant]; simp))

/-! ### A wait that is cancelled (R14) -/

theorem cancelWait_books (h : s.Books away) (out : ∀ u, u ≠ t → (away' u ↔ away u)) : (cancelWait t s).Books away' :=
  h.dropWait rfl id out

theorem cancelWait_task (t : Slot) (s : State) :
    (cancelWait t s).task t = { s.task t with wait := none, holdFlag := false, holdCause := none } := by
  simp [cancelWait]

theorem cancelWait_task_ne {t u : Slot} (s : State) (h : u ≠ t) : (cancelWait t s).task u = s.task u := by
  simp [cancelWait, State.updTask_task_ne _ _ h.symm]

theorem cancelWait_port (t : Slot) (s : State) (p : Port) : (cancelWait t s).port p = s.port p := by
  simp [cancelWait]

theorem cancelWait_queue (t : Slot) (s : State) (l : Fin 32) : (cancelWait t s).queue l = s.queue l :=
  leaveWait_queue t s l

theorem cancelWait_headBlocked (h : s.HeadBlocked) (not_head : s.isPageHead t = false) : (cancelWait t s).HeadBlocked :=
  h.leave not_head (leaveWait_frame t s).pool fun _ ne => by rw [cancelWait_task_ne s ne]

theorem State.Limbo.cancelWait (h : s.Limbo v away) (hv : v t) (out : ∀ u, u ≠ t → (away' u ↔ away u)) :
    (cancelWait t s).Limbo v away' :=
  h.change (cancelWait_port t s) (cancelWait_queue t s) (fun _ hu => cancelWait_task_ne s fun e => hu (e ▸ hv))
    (cancelWait_books h.books out)

/-! ### Doom (R10, R15, R16) -/

theorem State.UrgentOn.congr (h : s.UrgentOn p v) (states : s'.states = s.states)
    (priority : ∀ u, (s'.task u).priority = (s.task u).priority) (affinity : ∀ u, (s'.task u).affinity = (s.task u).affinity)
    (next : s'.next p = s.next p) (enabled : (s'.port p).isEnabled = (s.port p).isEnabled) : s'.UrgentOn p v := by
  intro u r k e
  rw [State.urgency_next next fun y _ => priority y, State.urgency, priority]
  refine h u (states ▸ r) k ?_
  rwa [State.eligible, affinity, enabled] at e

/-- A departing occupant may depart otherwise. -/
theorem PortRecord.Fits.redispose {r : PortRecord} (h : r.Fits) {d e : Disposition} (was : r.occ.disposition = some d)
    (ne : d ≠ .stay) (ne' : e ≠ .stay) : { r with occ := { r.occ with disposition := some e } }.Fits where
  disposition := by
    obtain ⟨⟨f, hf, switch⟩, occupied⟩ := h.switch was ne
    refine ⟨iff_of_true rfl ⟨by rw [hf]; rfl, Option.isSome_iff_ne_none.2 occupied⟩, fun g hg => ?_⟩
    cases hg.symm.trans hf
    rw [switch]
    simpa using ne'
  quiet e := by
    obtain ⟨o, f, d'⟩ := h.quiet e
    rw [was] at d'; cases d'
  continues := h.continues

/-- The record of a task that is doomed. -/
def TaskRecord.doom (r : TaskRecord) : TaskRecord :=
  { r with doomed := true, holdFlag := false, holdCause := none, generation := r.generation + 1 }

theorem doom_eq (p : Port) (t : Slot) (s : State) :
    doom p t s =
      if (s.port p).occ.disposition = some .wait then
        if s.isPageHead t then serve (((cancelWait t s).updTask t TaskRecord.doom).setDisposition p .free)
        else ((cancelWait t s).updTask t TaskRecord.doom).setDisposition p .free
      else (s.updTask t TaskRecord.doom).setDisposition p .free := by
  unfold doom
  by_cases d : (s.port p).occ.disposition = some .wait
  · simp only [d, beq_self_eq_true, Bool.true_and, if_true, nextGeneration, updTask_updTask]
    rfl
  · simp only [beq_eq_false_iff_ne.2 d, Bool.false_and, if_neg d, nextGeneration, updTask_updTask]
    rfl

/-- A doomed occupant whose wait has been cancelled. -/
theorem State.Sound.doom_waiting (h : s.Sound Nobody) (o : (s.port p).occ.occupant = some t)
    (departs : (s.port p).occ.disposition = some .wait) :
    (((cancelWait t s).updTask t TaskRecord.doom).setDisposition p .free).Sound Nobody := by
  have running := h.dispatcher.states_occupant o
  have port (q : Port) : (((cancelWait t s).updTask t TaskRecord.doom).setDisposition p .free).port q =
      if p = q then { s.port p with occ := { (s.port p).occ with disposition := some .free } } else s.port q := by
    rw [State.setDisposition_port]
    simp only [State.updTask_port, cancelWait_port]
  have here := (port p).trans (if_pos rfl)
  have there (q : Port) (ne : p ≠ q) := (port q).trans (if_neg ne)
  have leaving := h.dispatcher.leaving_revised o here there
  have self : (((cancelWait t s).updTask t TaskRecord.doom).setDisposition p .free).task t = ((cancelWait t s).task t).doom := by
    simp
  have other (u : Slot) (ne : u ≠ t) :
      (((cancelWait t s).updTask t TaskRecord.doom).setDisposition p .free).task u = s.task u := by
    rw [State.setDisposition_task, State.updTask_task_ne _ _ ne.symm, cancelWait_task_ne s ne]
  have field {α : Type} (π : TaskRecord → α) (doom : ∀ r : TaskRecord, π r.doom = π r)
      (cancel : π ((cancelWait t s).task t) = π (s.task t)) (u : Slot) :
      π ((((cancelWait t s).updTask t TaskRecord.doom).setDisposition p .free).task u) = π (s.task u) := by
    by_cases e : u = t
    · rw [e, self, doom, cancel]
    · rw [other u e]
  have state := field TaskRecord.state (fun _ => rfl) (by rw [cancelWait_task])
  have priority := field TaskRecord.priority (fun _ => rfl) (by rw [cancelWait_task])
  have affinity := field TaskRecord.affinity (fun _ => rfl) (by rw [cancelWait_task])
  have revising := h.revise here there (fun l => by simp [cancelWait_queue]) other (state t) (affinity t) (by rw [running]; simp)
    (fun q ne => h.dispatcher.occupant_not_next o ne) (.inr o)
    (PortRecord.redecidable_leaving (.inr (.inr rfl)) (by rw [o]; simp)) (s' := ((cancelWait t s).updTask t TaskRecord.doom).setDisposition p .free)
    (away' := Nobody) ⟨?_, ?_⟩ ?_
  · refine revising.sound ?_ ((State.urgencyLaw_iff.1 h.urgency p).congr (funext state) priority affinity ?_ ?_)
    · rw [here]
      exact (h.dispatcher.fits p).redispose departs (by simp) (by simp)
    · rw [setDisposition_next, State.updTask_next, State.next_congr (cancelWait_port t s p)]
    · rw [here]; rfl
  · rw [self, leaving, State.states, state, cancelWait_task]
    rw [State.states] at running
    rw [running]
    simp [TaskRecord.doom]
  · rw [self, leaving]
    simp [TaskRecord.doom]
  · exact ((BooksKept.updTask rfl id).trans (.setDisposition _ p .free)).books (cancelWait_books h.books fun _ _ => .rfl)

/-- A departing waiter is doomed: its wait is cancelled, and the queue is served if it was the head. -/
theorem doom_waiting_lawful (h : s.Lawful) (o : (s.port p).occ.occupant = some t)
    (departs : (s.port p).occ.disposition = some .wait) : (doom p t s).Lawful := by
  have sound := h.sound.doom_waiting o departs
  have objects := (cancelWait_frame t s).objects
  have kept : BooksKept (cancelWait t s) (((cancelWait t s).updTask t TaskRecord.doom).setDisposition p .free) :=
    (BooksKept.updTask rfl id).trans (.setDisposition _ p .free)
  have exchanges (y : Fin 16) : ((((cancelWait t s).updTask t TaskRecord.doom).setDisposition p .free).exchange y).state.Lawful := by
    rw [kept.exchange]
    exact objects.exchangesLawful h.exchanges y
  have timers : (((cancelWait t s).updTask t TaskRecord.doom).setDisposition p .free).TimerOrder := by
    unfold State.TimerOrder
    rw [kept.time]
    exact objects.timerOrder h.timerOrder
  rw [doom_eq, if_pos departs]
  split
  · exact serve_lawful sound exchanges timers
  · next not_head =>
    have blocked := cancelWait_headBlocked h.headBlocked (Bool.not_eq_true _ ▸ not_head)
    exact State.lawful_iff.2 ⟨sound, exchanges, timers, blocked.congr (by rw [kept.pool]) fun u hu =>
      ⟨by rwa [kept.pool] at hu, kept.wait u⟩⟩

/-- Any other occupant is doomed: its port is about to be re-decided. -/
theorem doom_revising (h : s.Lawful) (o : (s.port p).occ.occupant = some t) (ne : (s.port p).occ.disposition ≠ some .wait) :
    (doom p t s).Revising p Nobody ∧ (doom p t s).Rested := by
  have kept : BooksKept s ((s.updTask t TaskRecord.doom).setDisposition p .free) :=
    (BooksKept.updTask rfl id).trans (.setDisposition _ p .free)
  rw [doom_eq, if_neg ne]
  refine ⟨h.sound.redispose o rfl rfl rfl (PortRecord.redecidable_leaving (.inr (.inr rfl)) (by rw [o]; simp))
    (iff_of_false (by rw [(h.sound.occupant_record o).1]; exact ne) (by simp)) (iff_of_true rfl rfl), kept.rested h.rested⟩

/-! ### Re-decision after a delete (R24) -/

/-- A SWITCH offer that is written again with its incoming. -/
theorem State.Lawful.rewriteOffer (h : s.Lawful) {f : Offer} (hf : (s.port p).occ.offer = some f) (switch : f.kind = .switchTask)
    (enabled : (s.port p).isEnabled = true) : (writeOffer p .switchTask f.incoming s).Lawful := by
  have claim (u : Slot) : s.isIncoming p u = true ↔ f.incoming = some u := by simp [State.isIncoming, hf, switch]
  have redecidable := (h.dispatcher.fits p).redecidable
  have work : Dispatches Nobody s (writeOffer p .switchTask f.incoming s) :=
    writeOffer_dispatches enabled fun _ u e => (claim u).2 e
  refine h.dispatches work (State.dispatcherLaw_iff.2 ⟨?_, fun q => ?_⟩) (State.urgencyLaw_iff.2 fun q => ?_)
  · rw [writeOffer_states]
    cases y : f.incoming with
    | none =>
      have := h.dispatcher.arranged.writeOffer_none p (k := .switchTask) (y := none) (.inr rfl)
      rwa [State.vacated_eq_self fun u => Bool.eq_false_iff.2 fun i => by rw [claim, y] at i; cases i] at this
    | some u =>
      have incoming := (claim u).2 y
      have vacated := State.Arranged.vacated_eq (place := s.states) incoming
      have := h.dispatcher.arranged.writeOffer_some p (t := u) (by rw [vacated, moveTo_self]; exact away_held)
      rwa [vacated, moveTo_moveTo, moveTo_eq_self ((h.dispatcher.arranged.incomings u).2 ⟨p, incoming⟩)] at this
  · by_cases e : p = q
    · subst e
      refine writeOffer_switch_fits enabled ?_ fun stay => ?_
      · rw [(h.dispatcher.fits p).disposition.1, hf]; simp
      · have := ((h.dispatcher.fits p).disposition.2 f hf).1 stay
        rw [switch] at this
        cases this.1
    · exact writeOffer_port_ne e (h.dispatcher.fits q)
  · refine (State.urgencyLaw_iff.1 h.urgency q).of_frame work.frame (le_of_eq ?_) fun u r _ => by rwa [writeOffer_states] at r
    rw [work.frame.urgency, writeOffer_next]
    split
    · next e => subst e; rw [State.next, hf]
    · rfl

theorem redecideDeleted_lawful (h : s.Revising p Nobody) (r : s.Rested) : (redecideDeleted p s).Lawful := by
  have redecided := h.redecide_lawful r
  unfold redecideDeleted
  cases hf : (s.port p).occ.offer with
  | none => exact redecided
  | some f =>
    simp only
    split
    · next c =>
      obtain ⟨enabled, switch, urgent⟩ := c
      have redecidable := h.redeciding.redecidable
      have fits : (s.port p).Fits := by
        refine ⟨⟨?_, fun g hg => ?_⟩, h.redeciding.quiet, h.redeciding.continues⟩
        · cases o : (s.port p).occ.occupant with
          | none => simp [redecidable.idle o]
          | some x =>
            have := (redecidable.switching f hf switch (by rw [o]; simp)).1
            simp [hf, Option.isSome_iff_ne_none.2 this]
        · cases hg.symm.trans hf
          rw [switch]
          refine iff_of_false (fun stay => ?_) fun k => by cases k.1
          cases o : (s.port p).occ.occupant with
          | none => rw [redecidable.idle o] at stay; cases stay
          | some x => exact (redecidable.switching f hf switch (by rw [o]; simp)).2 stay
      have lawful : s.Lawful := State.lawful_iff.2 ⟨h.sound fits fun u ready _ e => by
        rw [State.next, hf]
        exact urgent.trans (h.redeciding.arranged.selection_urgent ready e), r⟩
      exact lawful.rewriteOffer hf switch enabled
    · exact redecided

/-! ### TASK.DELETE (R14, R15) -/

theorem deleteTask_lawful (h : s.Lawful) (t : Slot) : (deleteTask t s).Lawful := by
  have next := nextGeneration_lawful h t
  have states : (nextGeneration t s).states = s.states := State.updTask_states_eq rfl
  have retire_away (outside : (s.states t).Away) (ne : s.states t ≠ .waiting) :
      (retire t false (nextGeneration t s)).Lawful := by
    refine (next.sound.limbo (t := t) (by rw [states]; exact outside)).retire ?_ next.exchanges next.timerOrder
      fun _ => next.headBlocked
    exact next.sound.no_wait (by rw [states]; exact outside.2.1) (by rw [states]; exact ne)
  cases state : (s.task t).state with
  | free => simpa only [deleteTask, state] using h
  | dormant =>
    simp only [deleteTask, state]
    exact retire_away (by rw [State.states, state]; simp [TaskState.Away]) (by rw [State.states, state]; simp)
  | held =>
    simp only [deleteTask, state]
    exact retire_away (by rw [State.states, state]; simp [TaskState.Away]) (by rw [State.states, state]; simp)
  | ready =>
    simp only [deleteTask, state]
    have ready : (nextGeneration t s).states t = .ready := by rw [states]; exact state
    have rested := (unqueue_frame t (nextGeneration t s)).booksKept.rested next.rested
    exact (next.sound.unqueue ready).retire (next.sound.no_wait (by rw [ready]; simp) (by rw [ready]; simp))
      rested.exchanges rested.timerOrder fun _ => rested.headBlocked
  | selected =>
    obtain ⟨p, found, incoming⟩ := h.dispatcher.exists_portOfIncoming (t := t) state
    simp only [deleteTask, state, found]
    have selected : (nextGeneration t s).states t = .selected := by rw [states]; exact state
    have incoming' : (nextGeneration t s).isIncoming p t = true := by
      rw [nextGeneration, State.updTask_isIncoming]
      exact incoming
    obtain ⟨limbo, work⟩ := next.sound.gone incoming' (g := id) rfl rfl rfl id
      (by rw [id, show ((nextGeneration t s).task t).state = .selected from selected]; simp)
    rw [State.updTask_id] at limbo work
    have rested := work.frame.booksKept.rested next.rested
    refine limbo.retire ?_ rested.exchanges rested.timerOrder fun _ => rested.headBlocked
    rw [work.frame.wait]
    exact next.sound.no_wait (by rw [selected]; simp) (by rw [selected]; simp)
  | waiting =>
    simp only [deleteTask, state]
    have waiting : (nextGeneration t s).states t = .waiting := by rw [states]; exact state
    have limbo := (next.sound.limbo (t := t) (by rw [waiting]; simp [TaskState.Away])).cancelWait rfl
      (away' := Nobody) fun _ _ => .rfl
    have objects := (cancelWait_frame t (nextGeneration t s)).objects
    exact limbo.retire (by rw [cancelWait_task]) (objects.exchangesLawful next.exchanges) (objects.timerOrder next.timerOrder)
      fun not_head => cancelWait_headBlocked next.headBlocked not_head
  | running =>
    obtain ⟨p, found, o⟩ := h.dispatcher.exists_portOfOccupant (t := t) state
    simp only [deleteTask, state, found]
    by_cases departs : (s.port p).occ.disposition = some .wait
    · have doomed := doom_waiting_lawful h o departs
      exact redecideDeleted_lawful (doomed.sound.revising p) doomed.rested
    · obtain ⟨revising, rested⟩ := doom_revising h o departs
      exact redecideDeleted_lawful revising rested

/-- TASK.EXIT (R16). -/
theorem exitTask_lawful (h : s.Lawful) (caller : s.IsCaller p x) : (redecide p false (doom p x s)).Lawful := by
  obtain ⟨revising, rested⟩ := doom_revising h caller.occupant caller.notWaiting
  exact revising.redecide_lawful rested

end

end Sys2Proof.Machine

/-! ## The exchange commands keep the laws: messages and counts (R85 to R91, R101, R102) -/

namespace Sys2Proof.Machine

section
variable {s s' : State} {v away away' gone : Slot → Prop} {p : Port} {x t r : Slot} {y : Fin 16} {l : WaitList}

/-! ### Waiters that are taken off their list -/

/-- Tasks are taken off one list, their waits still to end. -/
theorem State.Sound.takeWaiters (h : s.Sound Nobody) (only : ListsOnly s s') (nodup : (s'.entries l).Nodup)
    (here : ∀ u, u ∈ s'.entries l ↔ u ∈ s.entries l ∧ ¬gone u) (others : ∀ m, m ≠ l → s'.entries m = s.entries m)
    (inside : ∀ u, gone u → u ∈ s.entries l) : s'.Sound gone := by
  have subset (m : WaitList) (u : Slot) (hu : u ∈ s'.entries m) : u ∈ s.entries m := by
    by_cases e : m = l
    · subst e; exact ((here u).1 hu).1
    · rwa [others m e] at hu
  refine h.change only.port only.queue only.task
    { lists := h.books.lists.take (fun u => by rw [only.task]) nodup here others inside
        fun k v => v.relist only.generation only.exchange
      filters := fun z b' e m hm u hu => ?_
      cells := h.books.cells.relist only.freeCells only.exchange
      lines := fun m => ?_
      ticks := by rw [only.time]; exact h.books.ticks
      timers := by simpa only [State.TimerLaw, only.time, only.task] using h.books.timers
      pool := h.books.pool.congr only.pool fun u e => by rwa [State.states, only.task] at e }
  · obtain ⟨o, e⟩ := State.mailbox_eq_some.1 e
    obtain ⟨b, e', queue, -⟩ := (only.exchange z).of_message e
    have entry : u ∈ s'.entries (.receivers z) := by rw [State.entries, e]; exact hu
    have before := subset _ u entry
    rw [State.entries, e'] at before
    simp only [State.filterMatches, only.task]
    exact h.books.filters z b (State.mailbox_eq_some.2 ⟨o, e'⟩) m (queue ▸ hm) u before
  · rw [only.line m]
    refine ⟨(h.books.lines m).1, fun ne => (h.books.lines m).2 ?_⟩
    obtain ⟨u, hu⟩ := List.exists_mem_of_ne_nil _ ne
    exact List.ne_nil_of_mem (subset (.line m) u hu)

/-- Lists that lose entries leave the objects at rest. -/
theorem State.Rested.takeWaiters (h : s.Rested) (only : ListsOnly s s') (subset : ∀ m u, u ∈ s'.entries m → u ∈ s.entries m)
    (pool : s'.pool = s.pool) : s'.Rested where
  exchanges z := by
    have left {m : WaitList} (ne : s'.entries m ≠ []) : s.entries m ≠ [] := by
      obtain ⟨u, hu⟩ := List.exists_mem_of_ne_nil _ ne
      exact List.ne_nil_of_mem (subset m u hu)
    exact (only.exchange z).lawful (h.exchanges z) (fun ne o b e => (h.exchanges z).full (left (m := .senders z) ne) e)
      fun ne o c e => (h.exchanges z).empty (left (m := .acquirers z) ne) e
  timerOrder := by simpa only [State.TimerOrder, only.time] using h.timerOrder
  headBlocked := h.headBlocked.congr (by rw [pool]) fun u hu => ⟨by rwa [pool] at hu, by rw [only.task]⟩

/-- A task waits in one list. -/
theorem State.waitsIn_unique {m : WaitList} (h : s.waitsIn t l) (k : s.waitsIn t m) : l = m := by
  obtain ⟨w, hw, list⟩ := h
  obtain ⟨w', hw', list'⟩ := k
  cases hw.symm.trans hw'
  exact Option.some.inj (list.symm.trans list')

/-- An entry of a list has a wait, and no other list. -/
theorem State.Sound.entry (h : s.Sound Nobody) (mem : t ∈ s.entries l) :
    (s.task t).wait.isSome ∧ (l ≠ .pages → ¬s.waitsIn t .pages) := by
  have waits := ((h.books.lists.mem l t).1 mem).2
  refine ⟨?_, fun ne k => ne (State.waitsIn_unique waits k)⟩
  obtain ⟨w, hw, -⟩ := waits
  rw [hw]; rfl

/-- A task is taken off a list of an exchange or a line, and its wait ends. -/
theorem State.Sound.release (h : s.Sound Nobody) (only : ListsOnly s s') (ne : l ≠ .pages) (mem : t ∈ s.entries l)
    (nodup : (s'.entries l).Nodup) (here : ∀ u, u ∈ s'.entries l ↔ u ∈ s.entries l ∧ u ≠ t)
    (others : ∀ m, m ≠ l → s'.entries m = s.entries m) (pool : s'.pool = s.pool) (d : Delivery) :
    (endWait t d s').Sound Nobody ∧ (s.HeadBlocked → (endWait t d s').HeadBlocked) ∧ (s.Rested → (endWait t d s').Rested) := by
  obtain ⟨waits, no_pages⟩ := h.entry mem
  have sound : s'.Sound (· = t) := h.takeWaiters only nodup here others fun u e => e ▸ mem
  have not_head : s'.isPageHead t = false := by
    rw [State.isPageHead, pool]
    exact h.books.lists.not_isPageHead (no_pages ne)
  refine ⟨endWait_sound sound (by rw [only.task]; exact waits) (fun u => ⟨False.elim, fun k => k.2 k.1⟩) d, fun blocked => ?_,
    fun rested => State.Rested.endWait (rested.takeWaiters only (fun m u hu => ?_) pool) not_head d⟩
  · have blocked : s'.HeadBlocked :=
      blocked.congr (by rw [pool]) fun u hu => ⟨by rwa [pool] at hu, by rw [only.task]⟩
    exact blocked.leave not_head (endWait_pool t d s') fun u ne => by rw [endWait_wait, if_neg ne]
  · by_cases e : m = l
    · subst e; exact ((here u).1 hu).1
    · rwa [others m e] at hu

/-! ### Messages -/

theorem State.entries_of_message {o : WaiterOrder} {b : Mailbox} (e : (s.exchange y).state = .message o b) :
    s.entries (.receivers y) = b.receivers ∧ s.entries (.senders y) = b.senders := by
  simp only [State.entries, e]
  exact ⟨rfl, rfl⟩

theorem State.entries_of_count {o : WaiterOrder} {c : Counter} (e : (s.exchange y).state = .count o c) :
    s.entries (.acquirers y) = c.acquirers := by
  simp only [State.entries, e]
  rfl

theorem updMailbox_entries_receivers {f : Mailbox → Mailbox} {o : WaiterOrder} {b : Mailbox}
    (e : (s.exchange y).state = .message o b) : (s.updMailbox y f).entries (.receivers y) = (f b).receivers := by
  simp only [State.entries, updMailbox_exchange, if_true, e]
  rfl

theorem updMailbox_entries_senders {f : Mailbox → Mailbox} {o : WaiterOrder} {b : Mailbox}
    (e : (s.exchange y).state = .message o b) : (s.updMailbox y f).entries (.senders y) = (f b).senders := by
  simp only [State.entries, updMailbox_exchange, if_true, e]
  rfl

theorem updCounter_entries_acquirers {f : Counter → Counter} {o : WaiterOrder} {c : Counter}
    (e : (s.exchange y).state = .count o c) : (s.updCounter y f).entries (.acquirers y) = (f c).acquirers := by
  simp only [State.entries, updCounter_exchange, if_true, e]
  rfl

/-- A message is handed to a receiver (R85). -/
theorem handMessage_spec (h : s.Sound Nobody) {o : WaiterOrder} {b : Mailbox} (e : (s.exchange y).state = .message o b)
    (mem : r ∈ b.receivers) (m : Message) : (handMessage y r m s).Sound Nobody ∧
      (s.HeadBlocked → (handMessage y r m s).HeadBlocked) ∧ (s.Rested → (handMessage y r m s).Rested) := by
  obtain ⟨receivers, -⟩ := State.entries_of_message e
  have nodup := h.books.lists.nodup (.receivers y)
  rw [receivers] at nodup
  have only : ListsOnly s (s.updMailbox y fun b => { b with receivers := b.receivers.erase r }) :=
    updMailbox_listsOnly s y fun b => ⟨_, _, rfl⟩
  have left := updMailbox_entries_receivers (f := fun b => { b with receivers := b.receivers.erase r }) e
  exact h.release (l := .receivers y) only (by simp) (receivers ▸ mem) (left ▸ nodup.erase r)
    (fun u => by rw [left, receivers, nodup.mem_erase_iff, and_comm])
    (fun l ne => updMailbox_entries (fun e => absurd e ne) fun _ _ => rfl) (State.updMailbox_pool ..) _

/-! ### Changes of what an exchange holds -/

/-- The waits that an exchange has go on with what it holds now. -/
theorem State.Valid.setExchange {e : ExchangeState}
    (message : ∀ o b, (s.exchange y).state = .message o b → ∃ o b, e = .message o b)
    (count : ∀ o c, (s.exchange y).state = .count o c → ∃ o c, e = .count o c) {k : WaitKind} (v : s.Valid k) :
    (s.setExchange y e).Valid k := by
  have id (z : Fin 16) : (s.setExchange y e).exchangeId z = s.exchangeId z := by
    rw [State.exchangeId, State.setExchange_exchange]
    split
    · next same => subst same; rfl
    · rfl
  have state (z : Fin 16) : ((s.setExchange y e).exchange z).state = if y = z then e else (s.exchange z).state := by
    rw [State.setExchange_exchange]
    split <;> rfl
  cases k with
  | recv i low high | send i m =>
    obtain ⟨z, o, b, rfl, hz⟩ := v
    by_cases same : y = z
    · subst same
      obtain ⟨o', b', e'⟩ := message o b hz
      exact ⟨y, o', b', (id y).symm, by rw [state, if_pos rfl, e']⟩
    · exact ⟨z, o, b, (id z).symm, by rw [state, if_neg same, hz]⟩
  | acquire i =>
    obtain ⟨z, o, c, rfl, hz⟩ := v
    by_cases same : y = z
    · subst same
      obtain ⟨o', c', e'⟩ := count o c hz
      exact ⟨y, o', c', (id y).symm, by rw [state, if_pos rfl, e']⟩
    · exact ⟨z, o, c, (id z).symm, by rw [state, if_neg same, hz]⟩
  | delay | event l => exact trivial
  | pages n => exact v

theorem State.ListsFit.congr (h : s.ListsFit away) (wait : ∀ u, (s'.task u).wait = (s.task u).wait)
    (entries : ∀ l, s'.entries l = s.entries l) (valid : ∀ k, s.Valid k → s'.Valid k) : s'.ListsFit away where
  nodup l := by rw [entries]; exact h.nodup l
  mem l u := by
    rw [entries]
    simp only [State.waitsIn, wait]
    exact h.mem l u
  valid u w e := valid _ (h.valid u w (wait u ▸ e))

theorem State.setExchange_state (s : State) (y z : Fin 16) (e : ExchangeState) :
    ((s.setExchange y e).exchange z).state = if y = z then e else (s.exchange z).state := by
  rw [State.setExchange_exchange]
  split <;> rfl

/-- The cells reserved where one exchange changes. -/
theorem State.reservedCells_change (others : ∀ z, y ≠ z → (s'.exchange z).state.cells = (s.exchange z).state.cells) :
    s'.reservedCells + (s.exchange y).state.cells = s.reservedCells + (s'.exchange y).state.cells := by
  have sum (s : State) : s.reservedCells = ∑ z, (s.exchange z).state.cells := by
    rw [State.reservedCells_eq, ← List.ofFn_eq_map, List.sum_ofFn]
  have before := Finset.sum_erase_add Finset.univ (fun z => (s.exchange z).state.cells) (Finset.mem_univ y)
  have after := Finset.sum_erase_add Finset.univ (fun z => (s'.exchange z).state.cells) (Finset.mem_univ y)
  have same : ∑ z ∈ Finset.univ.erase y, (s'.exchange z).state.cells = ∑ z ∈ Finset.univ.erase y, (s.exchange z).state.cells :=
    Finset.sum_congr rfl fun z hz => others z (Finset.ne_of_mem_erase hz).symm
  rw [sum, sum]
  omega

theorem State.CellLaw.setExchange (h : s.CellLaw) {e : ExchangeState} (cells : e.cells = (s.exchange y).state.cells) :
    (s.setExchange y e).CellLaw := by
  have state := s.setExchange_state y (e := e)
  have sum := State.reservedCells_change (s := s) (s' := s.setExchange y e) (y := y) fun z ne => by rw [state, if_neg ne]
  rw [state, if_pos rfl, cells] at sum
  unfold State.CellLaw at h ⊢
  have : (s.setExchange y e).freeCells = s.freeCells := rfl
  omega

/-- An exchange of the same kind with the same lists and as many cells: the receivers must match none of its messages (R80). -/
theorem State.Sound.setExchange (h : s.Sound Nobody) {e : ExchangeState}
    (message : ∀ o b, (s.exchange y).state = .message o b → ∃ o b, e = .message o b)
    (count : ∀ o c, (s.exchange y).state = .count o c → ∃ o c, e = .count o c)
    (receivers : e.receivers = (s.exchange y).state.receivers) (senders : e.senders = (s.exchange y).state.senders)
    (acquirers : e.acquirers = (s.exchange y).state.acquirers) (cells : e.cells = (s.exchange y).state.cells)
    (filter : ∀ o b, e = .message o b → ∀ m ∈ b.queue, ∀ t ∈ b.receivers, s.filterMatches m.tag t = false) :
    (s.setExchange y e).Sound Nobody := by
  have state := s.setExchange_state y (e := e)
  have entries (l : WaitList) : (s.setExchange y e).entries l = s.entries l := by
    cases l with
    | receivers z =>
      simp only [State.entries, state]
      split
      · next same => exact same ▸ receivers
      · rfl
    | senders z =>
      simp only [State.entries, state]
      split
      · next same => exact same ▸ senders
      · rfl
    | acquirers z =>
      simp only [State.entries, state]
      split
      · next same => exact same ▸ acquirers
      · rfl
    | line l => rfl
    | pages => rfl
  refine h.change (State.setExchange_port s y _) (fun _ => rfl) (fun _ => rfl)
    { lists := h.books.lists.congr (fun _ => rfl) entries fun k v => v.setExchange message count
      filters := fun z b hz m hm t ht => ?_
      cells := h.books.cells.setExchange cells
      lines := h.books.lines
      ticks := h.books.ticks
      timers := h.books.timers
      pool := h.books.pool }
  obtain ⟨o, hz⟩ := State.mailbox_eq_some.1 hz
  rw [state] at hz
  split at hz
  · exact filter o b hz m hm t ht
  · exact h.books.filters z b (State.mailbox_eq_some.2 ⟨o, hz⟩) m hm t ht

/-- Another queue in a mailbox. -/
theorem State.Sound.requeue (h : s.Sound Nobody) {o : WaiterOrder} {b : Mailbox} (e : (s.exchange y).state = .message o b)
    {q : List Message} (filter : ∀ m ∈ q, ∀ t ∈ b.receivers, s.filterMatches m.tag t = false) :
    (s.setExchange y (.message o { b with queue := q })).Sound Nobody :=
  h.setExchange (fun _ _ _ => ⟨_, _, rfl⟩) (fun _ _ k => by rw [e] at k; cases k) (by rw [e]; rfl) (by rw [e]; rfl) (by rw [e]; rfl)
    (by rw [e]; rfl) fun _ _ k => by cases k; exact filter

/-- Another count of units. -/
theorem State.Sound.recount (h : s.Sound Nobody) {o : WaiterOrder} {c : Counter} (e : (s.exchange y).state = .count o c) (n : Nat) :
    (s.setExchange y (.count o { c with count := n })).Sound Nobody :=
  h.setExchange (fun _ _ k => by rw [e] at k; cases k) (fun _ _ _ => ⟨_, _, rfl⟩) (by rw [e]; rfl) (by rw [e]; rfl) (by rw [e]; rfl)
    (by rw [e]; rfl) fun _ _ k => by cases k

/-- An exchange that holds something else leaves the objects at rest, if it is lawful. -/
theorem State.Rested.setExchange (h : s.Rested) {e : ExchangeState} (lawful : e.Lawful) : (s.setExchange y e).Rested where
  exchanges z := by
    rw [State.setExchange_state]
    split
    · exact lawful
    · exact h.exchanges z
  timerOrder := h.timerOrder
  headBlocked := h.headBlocked

/-! ### MSG.SEND and MSG.RECV (R85 to R89) -/

theorem queueMessage_eq {o : WaiterOrder} {b : Mailbox} (e : (s.exchange y).state = .message o b) (m : Message) :
    queueMessage y m s = s.setExchange y (.message o { b with queue := b.queue ++ [m] }) :=
  updMailbox_of_message e _

/-- A message that no receiver matches is queued (R79, R85). -/
theorem State.Sound.queueMessage (h : s.Sound Nobody) {o : WaiterOrder} {b : Mailbox} (e : (s.exchange y).state = .message o b)
    {m : Message} (none_matches : s.matchingReceiver b m.tag = none) :
    (s.setExchange y (.message o { b with queue := b.queue ++ [m] })).Sound Nobody := by
  refine h.requeue e fun m' hm t ht => ?_
  rcases List.mem_append.1 hm with hm | hm
  · exact h.books.filters y b (State.mailbox_eq_some.2 ⟨o, e⟩) m' hm t ht
  · rw [List.mem_singleton.1 hm]
    exact Bool.not_eq_true _ ▸ List.find?_eq_none.1 none_matches t ht

/-- An id that names an exchange is its current id (R72). -/
theorem namedExchange_ok {id : Byte} (h : s.namedExchange id = .ok y) :
    id = s.exchangeId y ∧ exchangeIndex id = some y ∧ (s.exchange y).state ≠ .closed := by
  unfold State.namedExchange at h
  cases i : exchangeIndex id with
  | none => rw [i] at h; cases h
  | some z =>
    rw [i] at h
    simp only at h
    split at h
    · next c =>
      cases h
      refine ⟨BitVec.eq_of_toNat_eq ?_, rfl, c.2⟩
      have number : id.toNat % 32 = y.val + 1 := by
        unfold exchangeIndex at i
        split at i
        · have := congrArg Fin.val (Option.some.inj i)
          simp only at this
          omega
        · cases i
      rw [exchangeId_toNat, ← c.1]
      omega
    · cases h

/-- What each kind of wait needs to be begun. -/
theorem State.MustWait.delay : s.MustWait .delay where
  valid := trivial
  filter _ _ _ _ _ k := by cases k
  latch _ k := by cases k
  full _ _ _ _ k := by cases k
  empty _ _ _ _ k := by cases k
  blocked _ k := by cases k

theorem State.MustWait.send {o : WaiterOrder} {b : Mailbox} (e : (s.exchange y).state = .message o b)
    (full : b.queue.length = b.capacity) (m : Message) : s.MustWait (.send (s.exchangeId y) m) where
  valid := ⟨y, o, b, rfl, e⟩
  filter _ _ _ _ _ k := by cases k
  latch _ k := by cases k
  full _ _ z b' k i hz := by
    cases k
    cases (exchangeIndex_exchangeId s y).symm.trans i
    obtain ⟨o', e'⟩ := State.mailbox_eq_some.1 hz
    cases e.symm.trans e'
    exact full
  empty _ _ _ _ k := by cases k
  blocked _ k := by cases k

theorem State.MustWait.recv {o : WaiterOrder} {b : Mailbox} (e : (s.exchange y).state = .message o b) {low high : Byte}
    (none_passes : ∀ m ∈ b.queue, tagInRange low high m.tag = false) : s.MustWait (.recv (s.exchangeId y) low high) where
  valid := ⟨y, o, b, rfl, e⟩
  filter _ _ _ z b' k i hz := by
    cases k
    cases (exchangeIndex_exchangeId s y).symm.trans i
    obtain ⟨o', e'⟩ := State.mailbox_eq_some.1 hz
    cases e.symm.trans e'
    exact none_passes
  latch _ k := by cases k
  full _ _ _ _ k := by cases k
  empty _ _ _ _ k := by cases k
  blocked _ k := by cases k

theorem State.MustWait.acquire {o : WaiterOrder} {c : Counter} (e : (s.exchange y).state = .count o c) (empty : c.count = 0) :
    s.MustWait (.acquire (s.exchangeId y)) where
  valid := ⟨y, o, c, rfl, e⟩
  filter _ _ _ _ _ k := by cases k
  latch _ k := by cases k
  full _ _ _ _ k := by cases k
  empty _ z o' c' k i e' := by
    cases k
    cases (exchangeIndex_exchangeId s y).symm.trans i
    cases e.symm.trans e'
    exact empty
  blocked _ k := by cases k

theorem State.MustWait.event {l : Line} (latch : (s.line l).latch = 0) : s.MustWait (.event l) where
  valid := trivial
  filter _ _ _ _ _ k := by cases k
  latch _ k := by cases k; exact latch
  full _ _ _ _ k := by cases k
  empty _ _ _ _ k := by cases k
  blocked _ k := by cases k

theorem State.MustWait.pages {n : Nat} (low : 1 ≤ n) (high : n ≤ 32)
    (blocked : s.pool.waitQueue = [] → s.pool.grantFor n = none) : s.MustWait (.pages n) where
  valid := ⟨low, high⟩
  filter _ _ _ _ _ k := by cases k
  latch _ k := by cases k
  full _ _ _ _ k := by cases k
  empty _ _ _ _ k := by cases k
  blocked _ k := by cases k; exact blocked

theorem waitOr_lawful (h : s.Lawful) (refusal : Result) {caller : Option Slot} (may : ∀ x, caller = some x → s.IsCaller p x)
    {k : WaitKind} (must : s.MustWait k) {d : Option TickCount} (deadline : s.DeadlineFits d) :
    (waitOr refusal p caller k d s).state.Lawful := by
  cases caller with
  | none => exact h
  | some x => exact h.beginWait (may x rfl) must deadline

theorem sendMessage_lawful (h : s.Lawful) {caller : Option Slot} (may : ∀ x, caller = some x → s.IsCaller p x)
    {d : Option TickCount} (deadline : s.DeadlineFits d) {id : Byte} (named : s.namedExchange id = .ok y) (m : Message) :
    (sendMessage p caller d id y m s).state.Lawful := by
  obtain ⟨rfl, index, -⟩ := namedExchange_ok named
  cases box : s.mailbox y with
  | none => simpa only [sendMessage, box, refuse_state] using h
  | some b =>
    obtain ⟨o, e⟩ := State.mailbox_eq_some.1 box
    obtain ⟨low, high, length, full⟩ : ExchangeState.Lawful (.message o b) := e ▸ h.exchanges y
    cases found : s.matchingReceiver b m.tag with
    | some r =>
      simp only [sendMessage, box, found, done_state]
      obtain ⟨sound, -, rested⟩ := handMessage_spec h.sound e (List.mem_of_find?_eq_some found) m
      exact State.lawful_iff.2 ⟨sound, rested h.rested⟩
    | none =>
      simp only [sendMessage, box, found]
      split
      · next room =>
        rw [done_state, queueMessage_eq e]
        refine State.lawful_iff.2 ⟨h.sound.queueMessage e found, h.rested.setExchange ⟨low, high, ?_, fun ne => ?_⟩⟩
        · rw [List.length_append]
          exact room
        · have := full ne
          omega
      · exact waitOr_lawful h .full may (.send e (by omega) m) deadline

/-! ### CNT.ACQUIRE and CNT.RELEASE (R101, R102) -/

theorem acquireUnit_lawful (h : s.Lawful) {caller : Option Slot} (may : ∀ x, caller = some x → s.IsCaller p x)
    {d : Option TickCount} (deadline : s.DeadlineFits d) {id : Byte} (named : s.namedExchange id = .ok y) :
    (acquireUnit p caller d id y s).state.Lawful := by
  obtain ⟨rfl, index, -⟩ := namedExchange_ok named
  cases e : (s.exchange y).state with
  | closed => simpa only [acquireUnit, e, refuse_state] using h
  | message o b => simpa only [acquireUnit, e, refuse_state] using h
  | count o c =>
    obtain ⟨low, high, le, zero⟩ : ExchangeState.Lawful (.count o c) := e ▸ h.exchanges y
    simp only [acquireUnit, e]
    split
    · next units =>
      rw [done_state, updCounter_of_count e]
      refine State.lawful_iff.2 ⟨h.sound.recount e _, h.rested.setExchange ⟨low, high, (Nat.sub_le ..).trans le, fun ne => ?_⟩⟩
      have := zero ne
      omega
    · exact waitOr_lawful h .empty may (.acquire e (by omega)) deadline

theorem releaseUnit_lawful (h : s.Lawful) (y : Fin 16) : (releaseUnit y s).state.Lawful := by
  cases e : (s.exchange y).state with
  | closed => simpa only [releaseUnit, e, refuse_state] using h
  | message o b => simpa only [releaseUnit, e, refuse_state] using h
  | count o c =>
    obtain ⟨low, high, le, -⟩ : ExchangeState.Lawful (.count o c) := e ▸ h.exchanges y
    have acquirers := State.entries_of_count e
    cases queue : c.acquirers with
    | cons t rest =>
      have nodup := h.sound.books.lists.nodup (.acquirers y)
      rw [acquirers, queue, List.nodup_cons] at nodup
      have left := updCounter_entries_acquirers (f := fun c => { c with acquirers := rest }) e
      obtain ⟨sound, -, rested⟩ := h.sound.release (l := .acquirers y) (t := t)
        (updCounter_listsOnly s y (f := fun c => { c with acquirers := rest }) fun c => ⟨_, rfl⟩)
        (by simp) (by rw [acquirers, queue]; exact List.mem_cons_self) (left ▸ nodup.2)
        (fun u => by
          rw [left, acquirers, queue, List.mem_cons]
          exact ⟨fun m => ⟨.inr m, by rintro rfl; exact nodup.1 m⟩, fun ⟨m, ne⟩ => m.resolve_left ne⟩)
        (fun l ne => updCounter_entries fun e => absurd e ne) (State.updCounter_pool ..) (.ok .none)
      simpa only [releaseUnit, e, queue, done_state] using State.lawful_iff.2 ⟨sound, rested h.rested⟩
    | nil =>
      simp only [releaseUnit, e, queue]
      split
      · next room =>
        rw [done_state, updCounter_of_count e]
        exact State.lawful_iff.2 ⟨h.sound.recount e _, h.rested.setExchange ⟨low, high, room, fun ne => absurd queue ne⟩⟩
      · exact h

end

end Sys2Proof.Machine

/-! ## Receiving, opening and closing keep the laws (R74, R75, R88, R89) -/

namespace Sys2Proof.Machine

section
variable {s s' : State} {v away away' gone : Slot → Prop} {p : Port} {x t r : Slot} {y : Fin 16} {l : WaitList}

/-! ### Refill (R89) -/

/-- The laws while a mailbox is filled again: senders may wait at it though its queue is not full. -/
structure State.Filling (s : State) (y : Fin 16) : Prop where
  sound : s.Sound Nobody
  others : ∀ z, z ≠ y → (s.exchange z).state.Lawful
  box : ∃ o b, (s.exchange y).state = .message o b ∧ 1 ≤ b.capacity ∧ b.capacity ≤ 16 ∧ b.queue.length ≤ b.capacity
  timers : s.TimerOrder
  blocked : s.HeadBlocked

/-- With the queue full, or with no sender left, the mailbox is lawful again. -/
theorem State.Filling.lawful (h : s.Filling y)
    (filled : ∀ o b, (s.exchange y).state = .message o b → b.senders ≠ [] → b.queue.length = b.capacity) : s.Lawful := by
  refine State.lawful_iff.2 ⟨h.sound, fun z => ?_, h.timers, h.blocked⟩
  by_cases e : z = y
  · obtain ⟨o, b, state, low, high, length⟩ := h.box
    rw [e, state]
    exact ⟨low, high, length, filled o b state⟩
  · exact h.others z e

/-- What ends waits leaves the mailbox to be filled on. -/
theorem State.Filling.shrink (h : s.Filling y) (frame : ObjectFrame s s') (sound : s'.Sound Nobody) (blocked : s'.HeadBlocked) :
    s'.Filling y where
  sound := sound
  others z ne := (frame.exchange z).lawful (h.others z ne)
  box := by
    obtain ⟨o, b, state, low, high, length⟩ := h.box
    obtain ⟨r, q, state', -⟩ := (frame.exchange y).message state
    exact ⟨o, _, state', low, high, length⟩
  timers := frame.timerOrder h.timers
  blocked := blocked

/-- The head sender's wait ends. -/
theorem State.Filling.takeSender (h : s.Filling y) {o : WaiterOrder} {b : Mailbox} (e : (s.exchange y).state = .message o b)
    {rest : List Slot} (senders : b.senders = t :: rest) :
    (endWait t (.ok .none) (s.updMailbox y fun b => { b with senders := rest })).Filling y ∧
      ObjectFrame s (endWait t (.ok .none) (s.updMailbox y fun b => { b with senders := rest })) := by
  have list := (State.entries_of_message e).2
  have left := updMailbox_entries_senders (f := fun b => { b with senders := rest }) e
  have nodup := h.sound.books.lists.nodup (.senders y)
  rw [list, senders, List.nodup_cons] at nodup
  obtain ⟨sound, blocked, -⟩ := h.sound.release (l := .senders y) (t := t)
    (updMailbox_listsOnly s y (f := fun b => { b with senders := rest }) fun b => ⟨_, _, rfl⟩) (by simp)
    (by rw [list, senders]; exact List.mem_cons_self) (left ▸ nodup.2)
    (fun u => by
      rw [left, list, senders, List.mem_cons]
      exact ⟨fun m => ⟨.inr m, by rintro rfl; exact nodup.1 m⟩, fun ⟨m, ne⟩ => m.resolve_left ne⟩)
    (fun l ne => updMailbox_entries (fun _ _ => rfl) fun e => absurd e ne) (State.updMailbox_pool ..) (.ok .none)
  have first : ObjectFrame s (s.updMailbox y fun b => { b with senders := rest }) := by
    rw [updMailbox_of_message e]
    refine (setExchange_frame s y _ ?_).objects
    rw [e]
    exact ⟨_, _, rfl, .refl _, by rw [senders]; exact List.sublist_cons_self _ _⟩
  have frame := first.trans (endWait_frame t (.ok .none) _).objects
  exact ⟨h.shrink frame sound (blocked h.blocked), frame⟩

theorem handMessage_objects (y : Fin 16) (r : Slot) (m : Message) (s : State) : ObjectFrame s (handMessage y r m s) :=
  ((updMailbox_frame s y _ fun _ => ⟨_, _, rfl, List.erase_sublist, .refl _⟩).trans (endWait_frame r _ _)).objects

/-- The message goes to a receiver or to the queue, which has room for it. -/
theorem State.Filling.deliverOrQueue (h : s.Filling y) {o : WaiterOrder} {b : Mailbox} (e : (s.exchange y).state = .message o b)
    (room : b.queue.length < b.capacity) (m : Message) : (deliverOrQueue y m s).Filling y := by
  have box : s.mailbox y = some b := State.mailbox_eq_some.2 ⟨o, e⟩
  unfold Machine.deliverOrQueue
  rw [box, Option.bind_some]
  cases found : s.matchingReceiver b m.tag with
  | some r =>
    obtain ⟨sound, blocked, -⟩ := handMessage_spec h.sound e (List.mem_of_find?_eq_some found) m
    exact h.shrink (handMessage_objects y r m s) sound (blocked h.blocked)
  | none =>
    simp only
    obtain ⟨o', b', e', low, high, -⟩ := h.box
    cases e.symm.trans e'
    rw [queueMessage_eq e]
    refine ⟨h.sound.queueMessage e found, fun z ne => ?_, ⟨o, _, (s.setExchange_state y y _).trans (if_pos rfl), low, high, ?_⟩,
      h.timers, h.blocked⟩
    · rw [State.setExchange_state, if_neg ne.symm]
      exact h.others z ne
    · rw [List.length_append]
      exact room

theorem refillRounds_lawful (n : Nat) : ∀ s : State, s.Filling y → (s.exchange y).state.senders.length ≤ n →
    (refillRounds n y s).Lawful := by
  induction n with
  | zero =>
    intro s h length
    refine h.lawful fun o b e ne => absurd ?_ ne
    rw [e] at length
    exact List.length_eq_zero_iff.1 (Nat.le_zero.1 length)
  | succ n ih =>
    intro s h length
    obtain ⟨o, b, e, -, -, le⟩ := h.box
    have box : s.mailbox y = some b := State.mailbox_eq_some.2 ⟨o, e⟩
    by_cases room : b.queue.length < b.capacity
    · cases senders : b.senders with
      | nil =>
        simp only [refillRounds, box, if_pos room, senders]
        exact h.lawful fun o' b' e' ne => absurd (by cases e.symm.trans e'; exact senders) ne
      | cons t rest =>
        simp only [refillRounds, box, if_pos room, senders]
        obtain ⟨taken, frame⟩ := h.takeSender e senders
        obtain ⟨r, q, e₁, -⟩ := (frame.exchange y).message e
        have left : ((endWait t (.ok .none) (s.updMailbox y fun b => { b with senders := rest })).exchange y).state.senders.length ≤ n := by
          refine (endWait_senders t _ _ y).length_le.trans ?_
          rw [show ((s.updMailbox y fun b => { b with senders := rest }).exchange y).state.senders = rest from
            updMailbox_entries_senders (f := fun b => { b with senders := rest }) e]
          rw [e, show ExchangeState.senders (.message o b) = b.senders from rfl, senders, List.length_cons] at length
          omega
        cases s.heldMessage t with
        | none => exact ih _ taken left
        | some m =>
          exact ih _ (taken.deliverOrQueue e₁ room m) ((deliverOrQueue_senders y m _).length_le.trans left)
    · simp only [refillRounds, box, if_neg room]
      refine h.lawful fun o' b' e' _ => ?_
      cases e.symm.trans e'
      omega

theorem refill_lawful (h : s.Filling y) : (refill y s).Lawful := by
  refine refillRounds_lawful _ s h ?_
  obtain ⟨o, b, e, -⟩ := h.box
  rw [State.mailbox_eq_some.2 ⟨o, e⟩, e]
  exact le_rfl

theorem receiveMessage_lawful (h : s.Lawful) {caller : Option Slot} (may : ∀ x, caller = some x → s.IsCaller p x)
    {d : Option TickCount} (deadline : s.DeadlineFits d) {id : Byte} (named : s.namedExchange id = .ok y) (low high : Byte) :
    (receiveMessage p caller d id low high y s).state.Lawful := by
  obtain ⟨rfl, -, -⟩ := namedExchange_ok named
  cases box : s.mailbox y with
  | none => simpa only [receiveMessage, box, refuse_state] using h
  | some b =>
    obtain ⟨o, e⟩ := State.mailbox_eq_some.1 box
    obtain ⟨one, sixteen, length, -⟩ : ExchangeState.Lawful (.message o b) := e ▸ h.exchanges y
    cases found : b.queue.find? fun m => tagInRange low high m.tag with
    | some m =>
      simp only [receiveMessage, box, found, done_state]
      rw [updMailbox_of_message e]
      refine refill_lawful ⟨h.sound.requeue e fun m' hm t ht => ?_, fun z ne => ?_,
        ⟨o, _, (s.setExchange_state y y _).trans (if_pos rfl), one, sixteen, ?_⟩, h.timerOrder, h.headBlocked⟩
      · exact h.filters y b box m' (List.mem_of_mem_eraseP hm) t ht
      · rw [State.setExchange_state, if_neg ne.symm]
        exact h.exchanges z
      · exact List.eraseP_sublist.length_le.trans length
    | none =>
      simp only [receiveMessage, box, found]
      exact waitOr_lawful h .empty may
        (.recv e fun m hm => Bool.not_eq_true _ ▸ List.find?_eq_none.1 found m hm) deadline

/-! ### XCH.OPEN (R74) -/

theorem lowestClosed_closed (h : s.lowestClosed = some y) : (s.exchange y).state = .closed := by
  simpa using List.find?_some h

/-- An exchange that is opened has no waiters. -/
theorem openExchange_lawful (h : s.Lawful) {e : ExchangeState} {cells : Nat} (lawful : e.Lawful) (reserves : e.cells = cells)
    (receivers : e.receivers = []) (senders : e.senders = []) (acquirers : e.acquirers = []) :
    (openExchange e cells s).state.Lawful := by
  unfold openExchange
  cases found : s.lowestClosed with
  | none => exact h
  | some y =>
    have closed := lowestClosed_closed found
    simp only
    split
    · exact h
    · next enough =>
      have state := s.setExchange_state y (e := e)
      have entries (l : WaitList) : (s.setExchange y e).entries l = s.entries l := by
        cases l with
        | receivers z =>
          simp only [State.entries, state]
          split
          · next same => subst same; rw [receivers, closed]; rfl
          · rfl
        | senders z =>
          simp only [State.entries, state]
          split
          · next same => subst same; rw [senders, closed]; rfl
          · rfl
        | acquirers z =>
          simp only [State.entries, state]
          split
          · next same => subst same; rw [acquirers, closed]; rfl
          · rfl
        | line l => rfl
        | pages => rfl
      have books := h.sound.books
      have lists : (s.setExchange y e).ListsFit Nobody := books.lists.congr (fun _ => rfl) entries fun k v =>
        v.setExchange (fun _ _ k => by rw [closed] at k; cases k) fun _ _ k => by rw [closed] at k; cases k
      have sum := State.reservedCells_change (s := s) (s' := s.setExchange y e) (y := y) fun z ne => by rw [state, if_neg ne]
      rw [state, if_pos rfl, closed, reserves, show ExchangeState.closed.cells = 0 from rfl] at sum
      have rested := h.rested.setExchange (y := y) lawful
      refine State.lawful_iff.2 ⟨h.sound.change (State.setExchange_port s y e) (fun _ => rfl) (fun _ => rfl)
        { lists := ⟨lists.nodup, lists.mem, lists.valid⟩
          filters := fun z b hz m hm t ht => ?_
          cells := ?_
          lines := books.lines
          ticks := books.ticks
          timers := books.timers
          pool := books.pool }, rested.exchanges, rested.timerOrder, rested.headBlocked⟩
      · obtain ⟨o, hz⟩ := State.mailbox_eq_some.1 hz
        have hz : ((s.setExchange y e).exchange z).state = .message o b := hz
        rw [state] at hz
        split at hz
        · rw [hz] at receivers
          rw [show b.receivers = [] from receivers] at ht
          cases ht
        · exact books.filters z b (State.mailbox_eq_some.2 ⟨o, hz⟩) m hm t ht
      · have before := books.cells
        unfold State.CellLaw at before ⊢
        have after : (s.setExchange y e).reservedCells = s.reservedCells + cells := by omega
        exact (congrArg (s.freeCells - cells + ·) after).trans (by omega)

/-! ### XCH.CLOSE (R75, R107) -/

/-- The waiters of an exchange are the entries of its lists. -/
theorem ExchangeState.mem_waiters {e : ExchangeState} : t ∈ e.waiters ↔ t ∈ e.receivers ∨ t ∈ e.senders ∨ t ∈ e.acquirers := by
  cases e with
  | closed => simp [ExchangeState.waiters, ExchangeState.receivers, ExchangeState.senders, ExchangeState.acquirers]
  | message o b => simp [ExchangeState.waiters, ExchangeState.receivers, ExchangeState.senders, ExchangeState.acquirers]
  | count o c => simp [ExchangeState.waiters, ExchangeState.receivers, ExchangeState.senders, ExchangeState.acquirers]

theorem State.Sound.waiters_nodup (h : s.Sound Nobody) (y : Fin 16) : (s.exchange y).state.waiters.Nodup := by
  have lists := h.books.lists
  cases e : (s.exchange y).state with
  | closed => exact List.nodup_nil
  | message o b =>
    obtain ⟨receivers, senders⟩ := State.entries_of_message e
    refine List.Nodup.append (receivers ▸ lists.nodup _) (senders ▸ lists.nodup _) fun t ht ht' => ?_
    have := State.waitsIn_unique ((lists.mem (.receivers y) t).1 (receivers ▸ ht)).2 ((lists.mem (.senders y) t).1 (senders ▸ ht')).2
    cases this
  | count o c =>
    have nodup := lists.nodup (.acquirers y)
    rw [State.entries_of_count e] at nodup
    exact nodup

/-- An exchange that nobody waits at is closed. -/
theorem State.Lawful.close (h : s.Lawful) (nobody : ∀ t, t ∉ (s.exchange y).state.waiters) :
    ({ s with
        exchanges := s.exchanges.set y ⟨(s.exchange y).generation + 1, .closed⟩
        freeCells := s.freeCells + (s.exchange y).state.cells } : State).Lawful := by
  generalize hs : ({ s with
        exchanges := s.exchanges.set y ⟨(s.exchange y).generation + 1, .closed⟩
        freeCells := s.freeCells + (s.exchange y).state.cells } : State) = s'
  have exchange (z : Fin 16) : s'.exchange z = if y = z then ⟨(s.exchange y).generation + 1, .closed⟩ else s.exchange z := by
    subst hs
    simp only [State.exchange, Fin.getElem_fin, Vector.getElem_set, Fin.ext_iff]
  have task (u : Slot) : s'.task u = s.task u := by subst hs; rfl
  have books := h.sound.books
  have empty : (s.exchange y).state.receivers = [] ∧ (s.exchange y).state.senders = [] ∧ (s.exchange y).state.acquirers = [] := by
    simp only [ExchangeState.mem_waiters, not_or] at nobody
    exact ⟨List.eq_nil_iff_forall_not_mem.2 fun u => (nobody u).1, List.eq_nil_iff_forall_not_mem.2 fun u => (nobody u).2.1,
      List.eq_nil_iff_forall_not_mem.2 fun u => (nobody u).2.2⟩
  obtain ⟨no_receivers, no_senders, no_acquirers⟩ := empty
  have entries (l : WaitList) : s'.entries l = s.entries l := by
    cases l with
    | receivers z =>
      simp only [State.entries, exchange]
      split
      · next same => subst same; rw [no_receivers]; rfl
      · rfl
    | senders z =>
      simp only [State.entries, exchange]
      split
      · next same => subst same; rw [no_senders]; rfl
      · rfl
    | acquirers z =>
      simp only [State.entries, exchange]
      split
      · next same => subst same; rw [no_acquirers]; rfl
      · rfl
    | line l => subst hs; rfl
    | pages => subst hs; rfl
  have elsewhere {z : Fin 16} (ne : y ≠ z) : s'.exchangeId z = s.exchangeId z := by
    rw [State.exchangeId, exchange, if_neg ne]; rfl
  have absent {l : WaitList} {t : Slot} {w : WaitRecord} (e : (s.task t).wait = some w) (list : w.kind.list = some l)
      (empty : s.entries l = []) : False := by
    have mem := (books.lists.mem l t).2 ⟨id, w, e, list⟩
    rw [empty] at mem
    cases mem
  refine State.lawful_iff.2 ⟨h.sound.change (fun p => by subst hs; cases p <;> rfl) (fun l => by subst hs; rfl) task
    { lists := ⟨fun l => by rw [entries]; exact books.lists.nodup l, fun l t => ?_, fun t w e => ?_⟩
      filters := fun z b hz m hm t ht => ?_
      cells := ?_
      lines := by subst hs; exact books.lines
      ticks := by subst hs; exact books.ticks
      timers := by subst hs; exact books.timers
      pool := by subst hs; exact books.pool }, fun z => ?_, by subst hs; exact h.timerOrder, by subst hs; exact h.headBlocked⟩
  · rw [entries]
    simp only [State.waitsIn, task]
    exact books.lists.mem l t
  · rw [task] at e
    have v := books.lists.valid t w e
    cases k : w.kind with
    | recv id low high =>
      rw [k] at v
      obtain ⟨z, o, b, rfl, hz⟩ := v
      have ne : y ≠ z := by
        rintro rfl
        exact absent e (l := .receivers y) (by rw [k, WaitKind.list, exchangeIndex_exchangeId]; rfl) no_receivers
      exact ⟨z, o, b, (elsewhere ne).symm, by rw [exchange, if_neg ne, hz]⟩
    | send id m =>
      rw [k] at v
      obtain ⟨z, o, b, rfl, hz⟩ := v
      have ne : y ≠ z := by
        rintro rfl
        exact absent e (l := .senders y) (by rw [k, WaitKind.list, exchangeIndex_exchangeId]; rfl) no_senders
      exact ⟨z, o, b, (elsewhere ne).symm, by rw [exchange, if_neg ne, hz]⟩
    | acquire id =>
      rw [k] at v
      obtain ⟨z, o, c, rfl, hz⟩ := v
      have ne : y ≠ z := by
        rintro rfl
        exact absent e (l := .acquirers y) (by rw [k, WaitKind.list, exchangeIndex_exchangeId]; rfl) no_acquirers
      exact ⟨z, o, c, (elsewhere ne).symm, by rw [exchange, if_neg ne, hz]⟩
    | delay => exact trivial
    | event l => exact trivial
    | pages n => rw [k] at v; exact v
  · obtain ⟨o, hz⟩ := State.mailbox_eq_some.1 hz
    rw [exchange] at hz
    split at hz
    · cases hz
    · simp only [State.filterMatches, task]
      exact books.filters z b (State.mailbox_eq_some.2 ⟨o, hz⟩) m hm t ht
  · have sum := State.reservedCells_change (s := s) (s' := s') (y := y) fun z ne => by rw [exchange, if_neg ne]
    rw [exchange, if_pos rfl, show ExchangeState.closed.cells = 0 from rfl] at sum
    have before := books.cells
    have free : s'.freeCells = s.freeCells + (s.exchange y).state.cells := by subst hs; rfl
    unfold State.CellLaw at before ⊢
    omega
  · rw [exchange]
    split
    · exact trivial
    · exact h.exchanges z

theorem ExchangeState.Shrinks.mem_waiters {e e' : ExchangeState} (h : e.Shrinks e') (m : t ∈ e'.waiters) : t ∈ e.waiters := by
  cases e with
  | closed => rwa [show e' = .closed from h] at m
  | message o b =>
    obtain ⟨r, q, rfl, hr, hq⟩ := h.message rfl
    exact (hr.append hq).subset m
  | count o c =>
    obtain ⟨a, rfl, ha⟩ := h.count rfl
    exact ha.subset m

/-- The waits of all the tasks have ended. -/
theorem endWaits_wait (d : Delivery) {ts : List Slot} : ∀ {s : State}, t ∈ ts ∨ (s.task t).wait = none →
    ((endWaits ts d s).task t).wait = none := by
  induction ts with
  | nil => exact fun h => h.resolve_left List.not_mem_nil
  | cons u ts ih =>
    intro s h
    refine ih ?_
    rw [endWait_wait]
    by_cases e : t = u
    · rw [if_pos e]; exact .inr rfl
    · rw [if_neg e]
      exact h.imp_left fun m => (List.mem_cons.1 m).resolve_left e

theorem closeExchange_lawful (h : s.Lawful) (y : Fin 16) : (closeExchange y s).state.Lawful := by
  have frame := (endWaits_frame (s.exchange y).state.waiters .closed s).objects
  have listed (t : Slot) (ht : t ∈ (s.exchange y).state.waiters) : ∃ l, l ≠ .pages ∧ t ∈ s.entries l := by
    rcases ExchangeState.mem_waiters.1 ht with m | m | m
    · exact ⟨.receivers y, by simp, m⟩
    · exact ⟨.senders y, by simp, m⟩
    · exact ⟨.acquirers y, by simp, m⟩
  obtain ⟨sound, rested⟩ := endWaits_sound (away' := Nobody) .closed (s.exchange y).state.waiters h.sound h.rested (h.sound.waiters_nodup y)
    (fun t ht => by
      obtain ⟨l, ne, mem⟩ := listed t ht
      exact ⟨(h.sound.entry mem).1, (h.sound.entry mem).2 ne⟩) fun u => ⟨False.elim, And.left⟩
  have ended := State.lawful_iff.2 ⟨sound, rested⟩
  have nobody (t : Slot) : t ∉ ((endWaits (s.exchange y).state.waiters .closed s).exchange y).state.waiters := fun m => by
    have none_left := endWaits_wait (s := s) .closed (.inl ((frame.exchange y).mem_waiters m))
    have lists := sound.books.lists
    rcases ExchangeState.mem_waiters.1 m with k | k | k
    · obtain ⟨-, w, e, -⟩ := (lists.mem (.receivers y) t).1 k
      rw [none_left] at e; cases e
    · obtain ⟨-, w, e, -⟩ := (lists.mem (.senders y) t).1 k
      rw [none_left] at e; cases e
    · obtain ⟨-, w, e, -⟩ := (lists.mem (.acquirers y) t).1 k
      rw [none_left] at e; cases e
  have closed := ended.close nobody
  rw [(frame.exchange y).relists.cells] at closed
  exact closed

end

end Sys2Proof.Machine

/-! ## Lines, time and pages keep the laws (R118 to R121, R131 to R134, R146 to R155) -/

namespace Sys2Proof.Machine

section
variable {s s' : State} {v away away' gone : Slot → Prop} {p : Port} {x t r : Slot} {l : Line}

/-! ### Line records and dividers -/

/-- The states differ in line records, their waiters apart, in the tick counter and the dividers, in input levels and in the free values
drawn. -/
structure Adjusted (s s' : State) : Prop where
  task : ∀ t, s'.task t = s.task t
  queue : ∀ l, s'.queue l = s.queue l
  port : ∀ p, s'.port p = s.port p
  exchange : ∀ x, s'.exchange x = s.exchange x
  freeCells : s'.freeCells = s.freeCells
  pool : s'.pool = s.pool
  waiters : ∀ l, (s'.line l).waiters = (s.line l).waiters
  timers : s'.time.timers = s.time.timers

theorem State.Sound.adjust (h : s.Sound away) (k : Adjusted s s') (lines : ∀ l, (s'.line l).Lawful) (ticks : s'.time.Bounded) :
    s'.Sound away := by
  have books := h.books
  have entries (l : WaitList) : s'.entries l = s.entries l := by
    cases l <;> simp only [State.entries, k.exchange, k.waiters, k.pool]
  refine h.change k.port k.queue k.task
    { lists := books.lists.congr (fun u => by rw [k.task]) entries fun _ v => v.congr k.exchange
      filters := fun z b hz m hm t ht => ?_
      cells := books.cells.relist k.freeCells fun z => by rw [k.exchange]; exact .refl _
      lines := lines
      ticks := ticks
      timers := by simpa only [State.TimerLaw, k.timers, k.task] using books.timers
      pool := books.pool.congr (by rw [k.pool]) fun u e => by rwa [State.states, k.task] at e }
  simp only [State.mailbox, k.exchange] at hz
  simp only [State.filterMatches, k.task]
  exact books.filters z b hz m hm t ht

theorem Adjusted.headBlocked (k : Adjusted s s') (h : s.HeadBlocked) : s'.HeadBlocked :=
  h.congr (by rw [k.pool]) fun u hu => ⟨by rwa [k.pool] at hu, by rw [k.task]⟩

theorem State.Lawful.adjust (h : s.Lawful) (k : Adjusted s s') (counter : s'.time.counter = s.time.counter)
    (lines : ∀ l, (s'.line l).Lawful) (ticks : s'.time.Bounded) : s'.Lawful :=
  State.lawful_iff.2 ⟨h.sound.adjust k lines ticks, fun z => by rw [k.exchange]; exact h.exchanges z,
    by simpa only [State.TimerOrder, counter, k.timers] using h.timerOrder, k.headBlocked h.headBlocked⟩

theorem State.Lawful.updLine (h : s.Lawful) {f : LineRecord → LineRecord} (waiters : (f (s.line l)).waiters = (s.line l).waiters)
    (lawful : (f (s.line l)).Lawful) : (s.updLine l f).Lawful := by
  refine h.adjust ⟨by simp, by simp, by simp, by simp, rfl, rfl, fun m => ?_, rfl⟩ rfl (fun m => ?_) h.ticks
  · rw [State.updLine_line]
    split
    · next e => subst e; exact waiters
    · rfl
  · rw [State.updLine_line]
    split
    · exact lawful
    · exact h.lines m

theorem State.Lawful.draw (h : s.Lawful) (n : Nat) : { s with draws := n }.Lawful :=
  h.adjust ⟨fun _ => rfl, fun _ => rfl, fun p => by cases p <;> rfl, fun _ => rfl, rfl, rfl, fun _ => rfl, rfl⟩ rfl h.lines h.ticks

/-! ### Line events (R133, R134) and samples (R131) -/

theorem updLine_listsOnly (s : State) (l : Line) {f : LineRecord → LineRecord} (h : ∀ r, f r = { r with waiters := (f r).waiters }) :
    ListsOnly s (s.updLine l f) := by
  refine ⟨by simp, by simp, by simp, fun _ => rfl, fun _ => .refl _, rfl, rfl, fun m => ?_, rfl⟩
  rw [State.updLine_line]
  split
  · next e => subst e; exact h _
  · rfl

theorem updLine_entries_self (s : State) (l : Line) (f : LineRecord → LineRecord) :
    (s.updLine l f).entries (.line l) = (f (s.line l)).waiters := by
  rw [State.entries, State.updLine_line, if_pos rfl]

theorem takeLineEvent_lawful (h : s.Lawful) (l : Line) : (takeLineEvent l s).Lawful := by
  have nodup := h.sound.books.lists.nodup (.line l)
  have list : s.entries (.line l) = (s.line l).waiters := rfl
  cases queue : (s.line l).waiters with
  | nil =>
    simp only [takeLineEvent, queue]
    have lawful := h.lines l
    refine h.updLine ?_ ?_
    · unfold LineRecord.latchEvent; split <;> rfl
    · unfold LineRecord.latchEvent
      split
      · next lt => exact ⟨lt, fun ne => absurd queue ne⟩
      · exact lawful
  | cons t rest =>
    rw [list, queue] at nodup
    have first := (List.nodup_cons.1 nodup).1
    cases mode : (s.line l).releaseMode with
    | one =>
      simp only [takeLineEvent, queue, mode]
      have left := updLine_entries_self s l fun r => { r with waiters := rest }
      obtain ⟨sound, -, rested⟩ := h.sound.release (l := .line l) (t := t)
        (updLine_listsOnly s l (f := fun r => { r with waiters := rest }) fun _ => rfl) (by simp)
        (by rw [list, queue]; exact List.mem_cons_self) (by rw [left]; exact (List.nodup_cons.1 nodup).2)
        (fun u => by
          rw [left, list, queue, List.mem_cons]
          exact ⟨fun m => ⟨.inr m, by rintro rfl; exact first m⟩, fun ⟨m, ne⟩ => m.resolve_left ne⟩)
        (fun m ne => updLine_entries ne) rfl (.ok .none)
      exact State.lawful_iff.2 ⟨sound, rested h.rested⟩
    | all =>
      simp only [takeLineEvent, queue, mode]
      have only := updLine_listsOnly s l (f := fun r => { r with waiters := [] }) fun _ => rfl
      have left := updLine_entries_self s l fun r => { r with waiters := [] }
      have taken : (s.updLine l fun r => { r with waiters := [] }).Sound (· ∈ t :: rest) := by
        refine h.sound.takeWaiters only (l := .line l) (by rw [left]; exact List.nodup_nil) (fun u => ?_)
          (fun m ne => updLine_entries ne) fun u m => by rw [list, queue]; exact m
        rw [left, list, queue]
        exact iff_of_false List.not_mem_nil fun k => k.2 k.1
      have rested := h.rested.takeWaiters only (fun m u hu => ?_) rfl
      · have waits (u : Slot) (hu : u ∈ t :: rest) : ((s.updLine l fun r => { r with waiters := [] }).task u).wait.isSome ∧
            ¬(s.updLine l fun r => { r with waiters := [] }).waitsIn u .pages := by
          obtain ⟨waits, no_pages⟩ := h.sound.entry (l := .line l) (by rw [list, queue]; exact hu)
          refine ⟨by rw [only.task]; exact waits, ?_⟩
          simp only [State.waitsIn, only.task]
          exact no_pages (by simp)
        obtain ⟨sound, rested⟩ := endWaits_sound (away' := Nobody) (.ok .none) (t :: rest) taken rested nodup waits
          fun u => ⟨False.elim, fun k => k.2 k.1⟩
        exact State.lawful_iff.2 ⟨sound, rested⟩
      · by_cases e : m = .line l
        · subst e; rw [left] at hu; cases hu
        · rwa [updLine_entries e] at hu

theorem recogniseEdge_lawful (h : s.Lawful) (l : Line) (e : Edge) : (recogniseEdge l e s).Lawful := by
  have edge : (s.updLine l fun r => { r with sampled := true, settled := edgeLevel e, pendingCount := false }).Lawful :=
    h.updLine rfl (h.lines l)
  unfold recogniseEdge
  simp only
  split
  · exact takeLineEvent_lawful edge l
  · exact edge

theorem LineRecord.sample_spec (r : LineRecord) (level : Bool) :
    (r.sample level).waiters = r.waiters ∧ (r.sample level).latch = r.latch := by
  unfold LineRecord.sample
  split <;> exact ⟨rfl, rfl⟩

theorem sampleQuietLines_lawful (h : s.Lawful) (levels : Byte) : (sampleQuietLines levels s).Lawful := by
  have line (l : Line) : ((sampleQuietLines levels s).line l).waiters = (s.line l).waiters ∧
      ((sampleQuietLines levels s).line l).latch = (s.line l).latch := by
    simp only [sampleQuietLines, State.line, Fin.getElem_fin, Vector.getElem_ofFn]
    split
    · exact ⟨rfl, rfl⟩
    · exact LineRecord.sample_spec _ _
  refine h.adjust ⟨fun _ => rfl, fun _ => rfl, fun p => by cases p <;> rfl, fun _ => rfl, rfl, rfl, fun l => (line l).1, rfl⟩ rfl
    (fun l => ?_) h.ticks
  rw [LineRecord.Lawful, (line l).1, (line l).2]
  exact h.lines l

theorem recogniseEdges_lawful (es : List (Line × Edge)) : ∀ s : State, s.Lawful →
    (es.foldl (fun s e => recogniseEdge e.1 e.2 s) s).Lawful := by
  induction es with
  | nil => exact fun _ h => h
  | cons e es ih => exact fun s h => ih _ (recogniseEdge_lawful h e.1 e.2)

theorem sampleLines_lawful (h : s.Lawful) (levels : Byte) : (sampleLines levels s).Lawful := by
  have quiet := sampleQuietLines_lawful h levels
  unfold sampleLines
  simp only
  split
  · exact quiet
  · exact recogniseEdge_lawful quiet _ _
  · exact recogniseEdges_lawful _ _ (quiet.draw _)

/-! ### Expiry and tick (R118 to R121) -/

theorem remainingCount_eq_zero {c d : TickCount} : remainingCount c d = 0 ↔ d = c := by
  have hc := c.isLt
  have hd := d.isLt
  rw [remainingCount, BitVec.toNat_sub, ← BitVec.toNat_inj]
  omega

/-- A tick brings every deadline that is not reached nearer by one. -/
theorem remainingCount_succ {c d : TickCount} (h : 1 ≤ remainingCount c d) :
    remainingCount (c + 1) d = remainingCount c d - 1 := by
  have hc := c.isLt
  have hd := d.isLt
  have one : (1#32 : BitVec 32).toNat = 1 := rfl
  rw [remainingCount, BitVec.toNat_sub] at h ⊢
  rw [remainingCount, BitVec.toNat_sub, BitVec.toNat_add, show (1 : TickCount) = 1#32 from rfl, one]
  omega

/-- The laws while the due entries are taken: no entry but those of the tasks still to come is due. -/
structure State.Expiring (s : State) (due : List Slot) : Prop where
  sound : s.Sound Nobody
  exchanges : ∀ x, (s.exchange x).state.Lawful
  blocked : s.HeadBlocked
  order : (s.time.timers.map fun e => remainingCount s.time.counter e.deadline).Pairwise (· ≤ ·)
  bound : ∀ e ∈ s.time.timers, remainingCount s.time.counter e.deadline ≤ 65535
  due : ∀ e ∈ s.time.timers, remainingCount s.time.counter e.deadline = 0 → e.task ∈ due

theorem State.Expiring.lawful (h : s.Expiring []) : s.Lawful :=
  State.lawful_iff.2 ⟨h.sound, h.exchanges, ⟨h.order, fun e he =>
    ⟨Nat.one_le_iff_ne_zero.2 fun z => List.not_mem_nil (h.due e he z), h.bound e he⟩⟩, h.blocked⟩

/-- What ends the wait of the first of the due tasks goes on to the rest. -/
theorem State.Expiring.next {due : List Slot} (h : s.Expiring (t :: due)) (frame : ObjectFrame s s') (sound : s'.Sound Nobody)
    (blocked : s'.HeadBlocked) (out : ∀ e ∈ s'.time.timers, e.task ≠ t) : s'.Expiring due where
  sound := sound
  exchanges := frame.exchangesLawful h.exchanges
  blocked := blocked
  order := by
    rw [frame.time]
    exact h.order.sublist (frame.timers.map _)
  bound e he := by
    rw [frame.time]
    exact h.bound e (frame.timers.subset he)
  due e he z := by
    rw [frame.time] at z
    exact (List.mem_cons.1 (h.due e (frame.timers.subset he) z)).resolve_left (out e he)

theorem State.Expiring.expire {due : List Slot} (h : s.Expiring (t :: due)) : (expire t s).Expiring due := by
  unfold Machine.expire
  split
  · next is_due =>
    obtain ⟨e, he, k⟩ := List.any_eq_true.1 is_due
    simp only [Bool.and_eq_true, beq_iff_eq] at k
    have waits : (s.task t).wait.isSome := by
      have := (h.sound.books.timers.2 e.task e.deadline).1 he
      rw [k.1] at this
      cases w : (s.task t).wait with
      | none => rw [w] at this; cases this
      | some w => rfl
    have sound := endWait_sound (away' := Nobody) h.sound waits (fun _ => ⟨False.elim, And.left⟩) (expiryDelivery (s.task t).wait)
    have frame := (endWait_frame t (expiryDelivery (s.task t).wait) s).objects
    have out : ∀ e ∈ (endWait t (expiryDelivery (s.task t).wait) s).time.timers, e.task ≠ t := fun e he same => by
      have := (sound.books.timers.2 e.task e.deadline).1 he
      rw [same, endWait_wait, if_pos rfl] at this
      cases this
    simp only
    split
    · obtain ⟨served, blocked⟩ := serveRounds_sound _ _ sound le_rfl
      exact h.next (frame.trans (serve_frame _).1) served blocked fun e he => out e ((serve_frame _).1.timers.subset he)
    · next not_head =>
      exact h.next frame sound (h.blocked.leave (Bool.not_eq_true _ ▸ not_head) (endWait_pool ..) fun u ne => by
        rw [endWait_wait, if_neg ne]) out
  · next not_due =>
    refine ⟨h.sound, h.exchanges, h.blocked, h.order, h.bound, fun e he z => ?_⟩
    refine (List.mem_cons.1 (h.due e he z)).resolve_left fun same => not_due ?_
    exact List.any_eq_true.2 ⟨e, he, by simp [same, remainingCount_eq_zero.1 z]⟩

end

end Sys2Proof.Machine

/-! ## Ticks and pages keep the laws (R112 to R121, R146 to R155) -/

namespace Sys2Proof.Machine

section
variable {s s' : State} {p : Port} {x t : Slot}

/-! ### Ticks -/

theorem startPeriod_expiring (h : s.Lawful) : (startPeriod s).Expiring (startPeriod s).dueTasks := by
  have reached (e : TimerEntry) (he : e ∈ s.time.timers) :
      remainingCount (s.time.counter + 1) e.deadline = remainingCount s.time.counter e.deadline - 1 :=
    remainingCount_succ (h.timerOrder.2 e he).1
  obtain ⟨low, high, -, -, -, -⟩ := h.ticks
  have kept : Adjusted s (startPeriod s) :=
    ⟨fun _ => rfl, fun _ => rfl, fun p => by cases p <;> rfl, fun _ => rfl, rfl, rfl, fun _ => rfl, rfl⟩
  refine ⟨h.sound.adjust kept h.lines ⟨low, high, low, high, Nat.zero_lt_succ _, low⟩, h.exchanges, kept.headBlocked h.headBlocked,
    ?_, fun e he => ?_, fun e he z => ?_⟩
  · rw [List.pairwise_map]
    refine ((List.pairwise_map.1 h.timerOrder.1).imp_of_mem fun {e f} he hf le => ?_)
    show remainingCount (s.time.counter + 1) _ ≤ remainingCount (s.time.counter + 1) _
    rw [reached e he, reached f hf]
    exact Nat.sub_le_sub_right le 1
  · show remainingCount (s.time.counter + 1) _ ≤ _
    rw [reached e he]
    exact (Nat.sub_le _ _).trans (h.timerOrder.2 e he).2
  · exact List.mem_map.2 ⟨e, List.mem_filter.2 ⟨he, beq_iff_eq.2 (remainingCount_eq_zero.1 z)⟩, rfl⟩

theorem expireAll_lawful (due : List Slot) : ∀ s : State, s.Expiring due → (due.foldl (fun s t => expire t s) s).Lawful := by
  induction due with
  | nil => exact fun _ h => h.lawful
  | cons t due ih => exact fun s h => ih _ h.expire

theorem countQuanta_lawful (h : s.Lawful) : (countQuanta s).Lawful := by
  unfold countQuanta
  simp only
  split
  · split
    · exact countQuantum_lawful (countQuantum_lawful (h.draw _) .B) .A
    · exact countQuantum_lawful (countQuantum_lawful (h.draw _) .A) .B
  · exact countQuantum_lawful (countQuantum_lawful h .A) .B

theorem tickWhole_lawful (h : s.Lawful) : (tickWhole s).Lawful :=
  countQuanta_lawful (expireAll_lawful _ _ (startPeriod_expiring h))

/-- A change of the Tick Unit's dividers and of N keeps the laws, if it keeps their bounds. -/
theorem State.Lawful.setTime (h : s.Lawful) {u : TickUnit} (counter : u.counter = s.time.counter)
    (timers : u.timers = s.time.timers) (ticks : u.Bounded) : { s with time := u }.Lawful :=
  h.adjust ⟨fun _ => rfl, fun _ => rfl, fun p => by cases p <;> rfl, fun _ => rfl, rfl, rfl, fun _ => rfl, timers⟩ counter
    h.lines ticks

theorem clkPeriod_lawful (h : s.Lawful) : (clkPeriod s).Lawful := by
  obtain ⟨low, high, periodLow, periodHigh, -, interval⟩ := h.ticks
  unfold clkPeriod
  split
  · exact h
  · split
    · next lt => exact h.setTime rfl rfl ⟨low, high, periodLow, periodHigh, lt, interval⟩
    · split
      · next lt => exact h.setTime rfl rfl ⟨low, high, periodLow, periodHigh, Nat.zero_lt_succ _, lt⟩
      · exact tickWhole_lawful h

/-- Between two ticks no entry is due (R116). -/
theorem expire_of_lawful (h : s.Lawful) (t : Slot) : expire t s = s := by
  refine if_neg fun due => ?_
  obtain ⟨e, he, k⟩ := List.any_eq_true.1 due
  simp only [Bool.and_eq_true, beq_iff_eq] at k
  have low := (h.timerOrder.2 e he).1
  rw [remainingCount_eq_zero.2 k.2] at low
  exact absurd low (Nat.not_succ_le_zero 0)

/-! ### Pages -/

/-- A change of the pool that leaves the page-wait queue. -/
theorem State.Lawful.repool (h : s.Lawful) {f : PagePool → PagePool} (queue : (f s.pool).waitQueue = s.pool.waitQueue)
    (fits : (f s.pool).Fits fun u => s.states u ≠ .free) : (s.updPool f).Sound Nobody :=
  h.sound.change (State.updPool_port s f) (fun _ => rfl) (fun _ => rfl)
    (h.sound.books.keep (fun _ => rfl) rfl rfl (fun _ => rfl) queue (fun _ => rfl) (State.poolLaw_iff.2 fits))

/-- While no request waits the pool may change. -/
theorem State.Lawful.repoolIdle (h : s.Lawful) (none_waits : s.pool.waitQueue = []) {f : PagePool → PagePool}
    (queue : (f s.pool).waitQueue = s.pool.waitQueue) (fits : (f s.pool).Fits fun u => s.states u ≠ .free) :
    (s.updPool f).Lawful :=
  State.lawful_iff.2 ⟨h.repool queue fits, h.exchanges, h.timerOrder, fun t head => by
    rw [State.updPool_pool, queue, none_waits] at head
    cases head⟩

theorem State.Lawful.poolFits (h : s.Lawful) : s.pool.Fits fun u => s.states u ≠ .free := State.poolLaw_iff.1 h.pool

theorem PagePool.createRun_waitQueue (q : PagePool) (e : Fin 64) (first n : Nat) (t : Slot) :
    (q.createRun e first n t).waitQueue = q.waitQueue := by
  unfold PagePool.createRun; rfl

theorem allocate_lawful (h : s.Lawful) (caller : s.IsCaller p x) {n : Nat} (low : 1 ≤ n) (high : n ≤ 32) (option : Byte)
    {d : Option TickCount} (deadline : s.DeadlineFits d) : (allocate p x n option d s).state.Lawful := by
  have otherwise (blocked : s.pool.waitQueue = [] → s.pool.grantFor n = none) :
      (if option = 0 then refuse (if s.pool.freeEntry.isNone then .noRuns else .noPages) s
        else beganWait (beginWait p x (.pages n) d s)).state.Lawful := by
    split
    · exact h
    · exact h.beginWait caller (.pages low high blocked) deadline
  cases queue : s.pool.waitQueue with
  | cons t rest =>
    simp only [allocate, queue]
    exact otherwise fun none_waits => by rw [queue] at none_waits; cases none_waits
  | nil =>
    cases grant : s.pool.grantFor n with
    | none =>
      simp only [allocate, queue, grant]
      exact otherwise fun _ => grant
    | some entry =>
      obtain ⟨e, k⟩ := entry
      simp only [allocate, queue, grant]
      have live : s.states x ≠ .free := by rw [h.dispatcher.states_occupant caller.occupant]; simp
      exact h.repoolIdle queue (PagePool.createRun_waitQueue ..) (h.poolFits.createRun grant low high live)

theorem removeAndServe_lawful (h : s.Lawful) (e : Fin 64) : (removeAndServe e s).1.Lawful :=
  serve_lawful (h.repool (by simp) (h.poolFits.removeRun e)) h.exchanges h.timerOrder

theorem giveRun_lawful (h : s.Lawful) {e : Fin 64} {r : Run} (hr : s.pool.runs[e] = some r) (live : s.states t ≠ .free) :
    (s.updPool fun q => { q with runs := q.runs.set e (some { r with owner := t }) }).Lawful := by
  have entry : ({ s.pool with runs := s.pool.runs.set e (some { r with owner := t }) } : PagePool).freeEntry = s.pool.freeEntry := by
    unfold PagePool.freeEntry
    congr 1
    funext f
    simp only [Fin.getElem_fin, Vector.getElem_set]
    split
    · next same =>
      obtain rfl := Fin.ext same
      rw [Fin.getElem_fin] at hr
      rw [hr]
      rfl
    · rfl
  refine State.lawful_iff.2 ⟨h.repool rfl (h.poolFits.give hr live), h.exchanges, h.timerOrder, fun u head => ?_⟩
  have blocked := h.headBlocked u head
  simp only [PagePool.grantFor] at blocked ⊢
  rw [State.updPool_pool, entry]
  exact blocked

theorem configPool_lawful (h : s.Lawful) {n : Nat} (low : 1 ≤ n) (high : n ≤ 128) (no_runs : s.pool.runList = []) :
    (serve (s.updPool fun q => { q with size := n, pageMap := Vector.replicate 128 none, freePages := n })).Lawful := by
  have empty (e : Fin 64) : s.pool.runs[e] = none := by
    by_contra ne
    obtain ⟨r, hr⟩ := Option.ne_none_iff_exists'.1 ne
    have := PagePool.mem_runList.2 ⟨e, hr⟩
    rw [no_runs] at this
    cases this
  refine serve_lawful (h.repool rfl ⟨low, high, fun k e => ?_, fun e r hr => ?_, ?_⟩) h.exchanges h.timerOrder
  · refine iff_of_false (by simp) fun ⟨r, hr, _⟩ => ?_
    have := hr.symm.trans (empty e)
    cases this
  · have := hr.symm.trans (empty e)
    cases this
  · rw [← PagePool.sum_runList]
    show n + (s.pool.runList.map (·.length)).sum = n
    rw [no_runs]
    rfl

end

end Sys2Proof.Machine

/-! ## Changes of a port's records: the Port Unit, PRST, and the end of an occupancy (R63, R65, R161, R180) -/

namespace Sys2Proof.Machine

section
variable {s s' : State} {v away : Slot → Prop} {p : Port} {x t u : Slot} {y : Option Slot}

/-! ### What the Dispatcher does not read of a port -/

/-- The port's records differ at most in the Port Unit, in PRST, in the sequence counter and in accept status. -/
structure PortRecord.SameOccupancy (r r' : PortRecord) : Prop where
  lifecycle : r'.lifecycle = r.lifecycle
  occupant : r'.occ.occupant = r.occ.occupant
  offer : r'.occ.offer = r.occ.offer
  disposition : r'.occ.disposition = r.occ.disposition

section
variable {f : PortRecord → PortRecord} (same : (s.port p).SameOccupancy (f (s.port p)))
include same

theorem PortRecord.SameOccupancy.all (q : Port) : (s.port q).SameOccupancy ((s.updPort p f).port q) := by
  rw [State.updPort_port]
  split
  · next e => exact e ▸ same
  · exact ⟨rfl, rfl, rfl, rfl⟩

theorem State.updPort_isIncoming (q : Port) (u : Slot) : (s.updPort p f).isIncoming q u = s.isIncoming q u := by
  simp only [State.isIncoming, (same.all q).offer]

theorem State.Arranged.updPort {place : Slot → TaskState} (h : s.Arranged place) : (s.updPort p f).Arranged place :=
  h.reprioritised (by simp) (by simp) (fun q => (same.all q).occupant) fun q => (same.all q).offer

theorem PortRecord.Fits.updPort {q : Port} (h : (s.port q).Fits) : ((s.updPort p f).port q).Fits := by
  obtain ⟨disposition, quiet, continues⟩ := h
  obtain ⟨life, occ, offer, dis⟩ := same.all q
  refine ⟨?_, ?_, ?_⟩
  · simpa only [Occupancy.DispositionFits, occ, offer, dis] using disposition
  · simpa only [PortRecord.QuietWhenDisabled, life, occ, offer, dis] using quiet
  · simpa only [occ, offer] using continues

theorem State.UrgentOn.updPort {q : Port} (h : s.UrgentOn q v) : (s.updPort p f).UrgentOn q v := by
  refine h.congr (funext fun u => by simp [State.states]) (by simp) (by simp) ?_ ?_
  · simp only [State.next, (same.all q).offer, (same.all q).occupant]
  · simp only [PortRecord.isEnabled, (same.all q).lifecycle]

theorem State.AffinityLaw.updPort (h : s.AffinityLaw) : (s.updPort p f).AffinityLaw := by
  intro q u hu
  rw [(same.all q).occupant, State.updPort_isIncoming same] at hu
  rw [State.updPort_task]
  exact h q u hu

theorem State.RecordLaw.updPort (h : s.RecordLaw u) : (s.updPort p f).RecordLaw u := by
  refine h.congr (by simp) (by simp) (by simp [State.states]) fun d _ => exists_congr fun q => ?_
  rw [(same.all q).occupant, (same.all q).disposition]

theorem State.Limbo.updPort (h : s.Limbo v away) (lawful : (f (s.port p)).Lawful) : (s.updPort p f).Limbo v away where
  ports q := by
    rw [State.updPort_port]
    split
    · exact lawful
    · exact h.ports q
  arranged := by
    obtain ⟨place, a, gone, place_eq⟩ := h.arranged
    exact ⟨place, a.updPort same, gone, fun u hu => (place_eq u hu).trans (by simp [State.states])⟩
  fits q := (h.fits q).updPort same
  urgent q := (h.urgent q).updPort same
  affinity := h.affinity.updPort same
  records u hu := (h.records u hu).updPort same
  books := (BooksKept.updPort s p f).books h.books

end

theorem State.Sound.updPort (h : s.Sound away) {f : PortRecord → PortRecord}
    (same : (s.port p).SameOccupancy (f (s.port p))) (lawful : (f (s.port p)).Lawful) : (s.updPort p f).Sound away :=
  State.limbo_nobody.1 (State.Limbo.updPort same (State.limbo_nobody.2 h) lawful)

theorem State.Lawful.updPort (h : s.Lawful) {f : PortRecord → PortRecord}
    (same : (s.port p).SameOccupancy (f (s.port p))) (lawful : (f (s.port p)).Lawful) : (s.updPort p f).Lawful :=
  State.lawful_iff.2 ⟨h.sound.updPort same lawful, (BooksKept.updPort s p f).rested h.rested⟩

/-- A change of the Port Unit. -/
theorem PortRecord.Lawful.unit {r : PortRecord} (h : r.Lawful) {u : PortUnit} (bounded : u.Bounded)
    (quiet : r.prst = true → u.intp = 0 ∧ u.command = none) : { r with unit := u }.Lawful :=
  ⟨bounded, h.quietWhenDisabled, fun a => ⟨(h.quietUnderReset a).1, quiet a⟩, h.sequenceFits⟩

theorem State.Lawful.updUnit (h : s.Lawful) {f : PortUnit → PortUnit} (bounded : (f (s.port p).unit).Bounded)
    (quiet : (s.port p).prst = true → (f (s.port p).unit).intp = 0 ∧ (f (s.port p).unit).command = none) :
    (s.updUnit p f).Lawful :=
  h.updPort ⟨rfl, rfl, rfl, rfl⟩ ((h.ports p).unit bounded quiet)

theorem PortRecord.raise_sameOccupancy (r : PortRecord) (c : Cause) : r.SameOccupancy (r.raise c) := by
  unfold PortRecord.raise
  split <;> exact ⟨rfl, rfl, rfl, rfl⟩

/-- A cause that becomes pending keeps the laws: none does under PRST (R171). -/
theorem PortRecord.Lawful.raise {r : PortRecord} (h : r.Lawful) (c : Cause) : (r.raise c).Lawful := by
  unfold PortRecord.raise
  split
  · exact h
  · next released => exact h.unit h.bounded fun a => absurd a released

theorem State.Limbo.raise (h : s.Limbo v away) (p : Port) (c : Cause) : (s.raise p c).Limbo v away :=
  State.Limbo.updPort (PortRecord.raise_sameOccupancy _ c) h ((h.ports p).raise c)

theorem State.Lawful.raise (h : s.Lawful) (p : Port) (c : Cause) : (s.raise p c).Lawful :=
  h.updPort (PortRecord.raise_sameOccupancy _ c) ((h.ports p).raise c)

/-- The completion of a command keeps the laws (R165). -/
theorem complete_lawful {r : Reply} (h : r.state.Lawful) (bytes : r.bytes.length ≤ 8) : (complete p r).Lawful := by
  obtain ⟨staging, -, -⟩ := (h.ports p).bounded
  refine State.Lawful.raise (h.updUnit ⟨staging, bytes, fun _ e => by cases e⟩ fun a => ?_) p .done
  exact ⟨((h.ports p).quietUnderReset a).2.1, rfl⟩

theorem setAcceptStatus_lawful (h : s.Lawful) (a : AcceptStatus) : (setAcceptStatus p a s).Lawful :=
  h.updPort (f := fun r => { r with occ := { r.occ with acceptStatus := a } }) ⟨rfl, rfl, rfl, rfl⟩
    ⟨(h.ports p).bounded, (h.ports p).quietWhenDisabled, (h.ports p).quietUnderReset, (h.ports p).sequenceFits⟩

/-! ### The end of an occupancy -/

/-- All the laws of `State.Sound` but those of one port's records by themselves. -/
structure State.SoundBut (s : State) (p : Port) : Prop where
  ports : ∀ q, p ≠ q → (s.port q).Lawful
  dispatcher : s.DispatcherLaw
  urgency : s.UrgencyLaw
  affinity : s.AffinityLaw
  records : ∀ t, s.RecordLaw t
  books : s.Books Nobody

theorem State.Sound.but (h : s.Sound Nobody) (p : Port) : s.SoundBut p :=
  ⟨fun q _ => h.ports q, h.dispatcher, h.urgency, h.affinity, h.records, h.books⟩

/-- The PRST input of a port goes to a level, whatever its records (R161). -/
theorem State.Sound.setPrst (h : s.Sound Nobody) (p : Port) (b : Bool) :
    (s.updPort p fun r => { r with prst := b }).SoundBut p := by
  have same : (s.port p).SameOccupancy { s.port p with prst := b } := ⟨rfl, rfl, rfl, rfl⟩
  refine ⟨fun q ne => ?_, State.dispatcherLaw_iff.2 ⟨?_, fun q => (h.dispatcher.fits q).updPort same⟩,
    State.urgencyLaw_iff.2 fun q => (State.urgencyLaw_iff.1 h.urgency q).updPort same, h.affinity.updPort same,
    fun u => (h.records u).updPort same, (BooksKept.updPort s p _).books h.books⟩
  · rw [State.updPort_port, if_neg ne]
    exact h.ports q
  · have states : (s.updPort p fun r => { r with prst := b }).states = s.states := by funext u; simp [State.states]
    rw [states]
    exact h.dispatcher.arranged.updPort same

/-- The task is the occupant of the port or the incoming of its SWITCH offer. -/
abbrev State.Holds (s : State) (p : Port) (t : Slot) : Prop := (s.port p).occ.occupant = some t ∨ s.isIncoming p t = true

theorem State.Arranged.holds_unique {place : Slot → TaskState} (h : s.Arranged place) {q : Port} (k : s.Holds p t)
    (l : s.Holds q t) : p = q := by
  rcases k with o | i <;> rcases l with o' | i'
  · exact h.oneOccupied t p q o o'
  · have running := (h.occupants t).2 ⟨p, o⟩
    rw [(h.incomings t).2 ⟨q, i'⟩] at running
    cases running
  · have running := (h.occupants t).2 ⟨q, o'⟩
    rw [(h.incomings t).2 ⟨p, i⟩] at running
    cases running
  · exact h.oneIncoming t p q i i'

theorem State.Arranged.holds_states {place : Slot → TaskState} (h : s.Arranged place) (k : s.Holds p t) :
    place t = .running ∨ place t = .selected :=
  k.imp (fun o => (h.occupants t).2 ⟨p, o⟩) fun i => (h.incomings t).2 ⟨p, i⟩

theorem State.Arranged.not_holds {place : Slot → TaskState} (h : s.Arranged place) (r : place t = .ready) : ¬s.Holds p t := fun k => by
  rcases h.holds_states k with e | e <;> rw [r] at e <;> cases e

/-- The record of a task that an accept resumes. -/
def TaskRecord.resume (r : TaskRecord) : TaskRecord := { r with state := .running, remaining := r.quantum, delivery := none }

/-- A port has no offer any more, and the tasks that held it are in limbo, but for the one that occupies it now, resumed. -/
structure Vacates (p : Port) (y : Option Slot) (s s' : State) : Prop where
  holds : ∀ u, y = some u → s.Holds p u
  occupant : (s'.port p).occ.occupant = y
  offer : (s'.port p).occ.offer = none
  disposition : (s'.port p).occ.disposition = none
  others : ∀ q, p ≠ q → s'.port q = s.port q
  queue : ∀ l, s'.queue l = s.queue l
  task : ∀ u, s'.task u = if y = some u then (s.task u).resume else s.task u
  kept : BooksKept s s'

/-- The places of the tasks when the port is vacated. -/
def State.freed (s : State) (p : Port) (y : Option Slot) (u : Slot) : TaskState :=
  if y = some u then .running else if s.Holds p u then .held else s.states u

theorem State.freed_of_not_holds (k : ¬s.Holds p u) (ne : y ≠ some u) : s.freed p y u = s.states u := by
  rw [State.freed, if_neg ne, if_neg k]

theorem State.freed_of_holds (k : s.Holds p u) (ne : y ≠ some u) : s.freed p y u = .held := by
  rw [State.freed, if_neg ne, if_pos k]

theorem State.freed_self : s.freed p (some u) u = .running := if_pos rfl

theorem Vacates.priority (w : Vacates p y s s') (u : Slot) : (s'.task u).priority = (s.task u).priority := by
  rw [w.task]; split <;> rfl

theorem Vacates.affinity (w : Vacates p y s s') (u : Slot) : (s'.task u).affinity = (s.task u).affinity := by
  rw [w.task]; split <;> rfl

theorem Vacates.isIncoming (w : Vacates p y s s') (q : Port) (u : Slot) :
    s'.isIncoming q u = true ↔ p ≠ q ∧ s.isIncoming q u = true := by
  by_cases e : p = q
  · subst e
    simp [State.isIncoming, w.offer]
  · rw [State.isIncoming_congr (w.others q e)]
    exact (and_iff_right e).symm

theorem Vacates.holds_of (w : Vacates p y s s') {q : Port} (k : s'.Holds q u) : s.Holds q u := by
  by_cases e : p = q
  · subst e
    rcases k with o | i
    · exact w.holds u (w.occupant.symm.trans o)
    · exact absurd rfl ((w.isIncoming p u).1 i).1
  · rw [State.Holds, w.others q e] at k
    exact k.imp_right fun i => ((w.isIncoming q u).1 i).2

theorem Vacates.arranged (w : Vacates p y s s') (h : s.DispatcherLaw) : s'.Arranged (s.freed p y) := by
  have a := h.arranged
  have elsewhere {u : Slot} {q : Port} (k : s.Holds q u) (ne : p ≠ q) : ¬s.Holds p u := fun l => ne (a.holds_unique l k)
  refine ⟨fun u l => ?_, fun u => ⟨fun e => ?_, fun ⟨q, o⟩ => ?_⟩, fun u q r o o' => ?_, fun u => ⟨fun e => ?_, fun ⟨q, i⟩ => ?_⟩,
    fun u q r i i' => a.oneIncoming u q r ((w.isIncoming q u).1 i).2 ((w.isIncoming r u).1 i').2⟩
  · rw [w.queue, a.queues, w.priority]
    by_cases k : s.Holds p u
    · have away : s.states u ≠ .ready := fun r => a.not_holds r k
      rw [if_neg fun e => away e.1, if_neg fun e => ?_]
      obtain ⟨e, -⟩ := e
      by_cases ne : y = some u
      · rw [ne, State.freed_self] at e; cases e
      · rw [State.freed_of_holds k ne] at e; cases e
    · rw [State.freed_of_not_holds k fun e => k (w.holds u e)]
  · by_cases ne : y = some u
    · exact ⟨p, w.occupant.trans ne⟩
    · by_cases k : s.Holds p u
      · rw [State.freed_of_holds k ne] at e; cases e
      · rw [State.freed_of_not_holds k ne] at e
        obtain ⟨q, o⟩ := (a.occupants u).1 e
        have : p ≠ q := by rintro rfl; exact k (.inl o)
        exact ⟨q, by rw [w.others q this]; exact o⟩
  · by_cases e : p = q
    · subst e
      obtain rfl := w.occupant.symm.trans o
      exact State.freed_self
    · rw [w.others q e] at o
      have k := elsewhere (.inl o) e
      rw [State.freed_of_not_holds k fun e => k (w.holds u e)]
      exact (a.occupants u).2 ⟨q, o⟩
  · exact a.holds_unique (w.holds_of (.inl o)) (w.holds_of (.inl o'))
  · by_cases ne : y = some u
    · rw [ne, State.freed_self] at e; cases e
    · by_cases k : s.Holds p u
      · rw [State.freed_of_holds k ne] at e; cases e
      · rw [State.freed_of_not_holds k ne] at e
        obtain ⟨q, i⟩ := (a.incomings u).1 e
        exact ⟨q, (w.isIncoming q u).2 ⟨by rintro rfl; exact k (.inr i), i⟩⟩
  · obtain ⟨ne, i⟩ := (w.isIncoming q u).1 i
    have k := elsewhere (.inr i) ne
    rw [State.freed_of_not_holds k fun e => k (w.holds u e)]
    exact (a.incomings u).2 ⟨q, i⟩

/-- A vacated port leaves the tasks that held it in limbo, but for the new occupant. -/
theorem Vacates.limbo (w : Vacates p y s s') (h : s.SoundBut p) (lawful : (s'.port p).Lawful)
    (quiet : ∀ u, y = some u → (s.task u).wait = none ∧ (s.task u).doomed = false)
    (urgent : (s'.port p).isEnabled = true → s.next p = y) (enabled : (s'.port p).isEnabled = true → (s.port p).isEnabled = true) :
    s'.Limbo (fun u => s.Holds p u ∧ y ≠ some u) Nobody := by
  have a := h.dispatcher.arranged
  have not_y {u : Slot} (k : ¬(s.Holds p u ∧ y ≠ some u)) (k' : y ≠ some u) : ¬s.Holds p u := fun l => k ⟨l, k'⟩
  have unchanged {u : Slot} (k' : y ≠ some u) : s'.task u = s.task u := by rw [w.task, if_neg k']
  refine ⟨fun q => ?_, ⟨_, w.arranged h.dispatcher, fun u hu => ?_, fun u hu => ?_⟩, fun q => ?_, fun q u r hu e => ?_,
    fun q u hu => ?_, fun u hu => ?_, w.kept.books h.books⟩
  · by_cases e : p = q
    · exact e ▸ lawful
    · rw [w.others q e]; exact h.ports q e
  · rw [State.freed_of_holds hu.1 hu.2]; exact away_held
  · by_cases e : y = some u
    · rw [e, State.freed_self, State.states, w.task, if_pos e]; rfl
    · rw [State.freed_of_not_holds (not_y hu e) e, State.states, State.states, unchanged e]
  · by_cases e : p = q
    · subst e
      refine ⟨⟨?_, fun f hf => ?_⟩, lawful.quietWhenDisabled, fun f hf => ?_⟩
      · rw [w.disposition, w.offer]; simp
      · rw [w.offer] at hf; cases hf
      · rw [w.offer] at hf; cases hf
    · rw [w.others q e]; exact h.dispatcher.fits q
  · have ne : y ≠ some u := fun e => by rw [State.states, w.task, if_pos e] at r; cases r
    have ready : s.states u = .ready := by rwa [State.states, unchanged ne] at r
    obtain ⟨permits, on⟩ := State.eligible_spec.1 e
    have next : s'.next q = s.next q := by
      by_cases e' : p = q
      · subst e'
        rw [urgent on, State.next, w.offer, w.occupant]
      · exact State.next_congr (w.others q e')
    rw [State.urgency_next next fun y _ => w.priority y, State.urgency, w.priority]
    refine State.urgencyLaw_iff.1 h.urgency q u ready id (State.eligible_spec.2 ⟨w.affinity u ▸ permits, ?_⟩)
    by_cases e' : p = q
    · subst e'; exact enabled on
    · rwa [w.others q e'] at on
  · rw [w.affinity]
    exact h.affinity q u (w.holds_of hu)
  · by_cases e : y = some u
    · obtain ⟨wait, doomed⟩ := quiet u e
      have task : s'.task u = (s.task u).resume := by rw [w.task, if_pos e]
      have no_leave (d : Disposition) : ¬s'.Leaving d u := by
        rintro ⟨q, o, k⟩
        obtain rfl := a.holds_unique (w.holds u e) (w.holds_of (.inl o))
        rw [w.disposition] at k; cases k
      refine ⟨iff_of_false (by rw [task]; simp [TaskRecord.resume, wait]) ?_,
        iff_of_false (by rw [task]; simp [TaskRecord.resume, doomed]) (no_leave _)⟩
      rw [State.states, task]
      exact not_or.2 ⟨by simp [TaskRecord.resume], no_leave _⟩
    · have k := not_y hu e
      refine (h.records u).congr (by rw [unchanged e]) (by rw [unchanged e]) (by rw [State.states, State.states, unchanged e])
        fun d _ => exists_congr fun q => ?_
      by_cases e' : p = q
      · subst e'
        exact iff_of_false (fun l => e (w.occupant.symm.trans l.1)) fun l => k (.inl l.1)
      · rw [w.others q e']

end

end Sys2Proof.Machine

/-! ## Accept, port loss and PORT.ENABLE keep the laws (R62 to R65, R178, R180, R181) -/

namespace Sys2Proof.Machine

section
variable {s s' : State} {v away : Slot → Prop} {p : Port} {x t u : Slot} {y : Option Slot}

/-! ### Accept -/

/-- The state with the new occupant of the port. -/
def State.occupied (s : State) (p : Port) (y : Option Slot) : State :=
  match y with
  | some t => resumeTask t (s.updOcc p fun o => { o with occupant := y })
  | none => s.updOcc p fun o => { o with occupant := y }

/-- The port is SETTLED with its new occupant, and what held it before has not yet become what its disposition says. -/
def State.accepted (s : State) (p : Port) (y : Option Slot) : State := settlePort p (s.occupied p y)

theorem acceptSwitch_eq (p : Port) (y : Option Slot) (s : State) :
    acceptSwitch p y s =
      match (s.port p).occ.occupant with
      | some x => applyDisposition x (s.port p).occ.disposition (s.accepted p y)
      | none => s.accepted p y := rfl

theorem State.occupied_port (s : State) (p : Port) (y : Option Slot) (q : Port) :
    (s.occupied p y).port q = if p = q then { s.port p with occ := { (s.port p).occ with occupant := y } } else s.port q := by
  cases y <;> simp [State.occupied, resumeTask, State.updOcc, State.updPort_port]

theorem State.occupied_task (s : State) (p : Port) (y : Option Slot) (u : Slot) :
    (s.occupied p y).task u = if y = some u then (s.task u).resume else s.task u := by
  cases y with
  | none => simp [State.occupied, State.updOcc]
  | some t =>
    simp only [State.occupied, resumeTask, State.updOcc, State.updTask_task, State.updPort_task, Option.some.injEq]
    split
    · next e => rw [e]; rfl
    · rfl

theorem State.accepted_port (s : State) (p : Port) (y : Option Slot) (q : Port) :
    (s.accepted p y).port q =
      if p = q then
        { s.port p with
          occ := { (s.port p).occ with occupant := y, offer := none, disposition := none, acceptStatus := .accepted }
          unit := { (s.port p).unit with intp := (s.port p).unit.intp &&& ~~~Cause.offer.mask } }
      else s.port q := by
  rw [State.accepted, settlePort, State.updPort_port, State.occupied_port, State.occupied_port]
  by_cases e : p = q
  · simp [e, PortRecord.clear]
  · simp [e]

theorem State.occupied_booksKept (s : State) (p : Port) (y : Option Slot) : BooksKept s (s.occupied p y) := by
  have occupied := BooksKept.updPort s p fun r => { r with occ := { r.occ with occupant := y } }
  cases y with
  | none => exact occupied
  | some t => exact occupied.trans (BooksKept.updTask (f := TaskRecord.resume) rfl fun e => by cases e)

theorem State.accepted_booksKept (s : State) (p : Port) (y : Option Slot) : BooksKept s (s.accepted p y) :=
  (s.occupied_booksKept p y).trans (BooksKept.updPort (s.occupied p y) p fun r =>
    PortRecord.clear .offer { r with occ := { r.occ with offer := none, disposition := none, acceptStatus := .accepted } })

/-- The next of a port holds it. -/
theorem State.DispatcherLaw.next_holds (h : s.DispatcherLaw) (next : s.next p = some t) : s.Holds p t :=
  (State.next_cases (h.fits p).continues next).imp id fun i => i t rfl

/-- The next of a port with an offer does not wait and is not doomed. -/
theorem State.Sound.next_quiet (h : s.Sound away) {f : Offer} (hf : (s.port p).occ.offer = some f)
    (next : f.incoming = some t) : (s.task t).wait = none ∧ (s.task t).doomed = false := by
  cases k : f.kind with
  | switchTask => exact h.dispatcher.incoming_record (p := p) (by simp [State.isIncoming, hf, k, next]) (h.records t)
  | continueTask =>
    have o := ((h.dispatcher.fits p).continues f hf k).symm.trans next
    have stay := ((h.dispatcher.fits p).disposition.2 f hf).2 ⟨k, by rw [o]; rfl⟩
    obtain ⟨waits, doomed⟩ := h.occupant_record o
    rw [stay] at waits doomed
    exact ⟨by simpa using waits, by simpa using doomed⟩

theorem State.DispatcherLaw.accepted_vacates (h : s.DispatcherLaw) {f : Offer} (hf : (s.port p).occ.offer = some f) :
    Vacates p f.incoming s (s.accepted p f.incoming) := by
  have port (q : Port) := s.accepted_port p f.incoming q
  have here := (port p).trans (if_pos rfl)
  have next : s.next p = f.incoming := by rw [State.next, hf]
  refine ⟨fun u e => h.next_holds (next.trans e), by rw [here], by rw [here], by rw [here],
    fun q ne => (port q).trans (if_neg ne), fun l => ?_, fun u => ?_, s.accepted_booksKept p f.incoming⟩
  · cases y : f.incoming <;> simp [State.accepted, settlePort, State.occupied, resumeTask, State.updOcc]
  · rw [State.accepted, settlePort, State.updPort_task, State.occupied_task]

/-- A port with an offer is ENABLED (R45). -/
theorem PortRecord.QuietWhenDisabled.live {r : PortRecord} (h : r.QuietWhenDisabled) {f : Offer} (hf : r.occ.offer = some f) :
    r.lifecycle ≠ .disabled := fun e => by
  have quiet := (h e).2.1
  rw [hf] at quiet; cases quiet

theorem State.Sound.accepted (h : s.Sound Nobody) {f : Offer} (hf : (s.port p).occ.offer = some f) :
    (s.accepted p f.incoming).Limbo (fun u => s.Holds p u ∧ f.incoming ≠ some u) Nobody := by
  have here := (s.accepted_port p f.incoming p).trans (if_pos rfl)
  have live := (h.ports p).quietWhenDisabled.live hf
  refine (h.dispatcher.accepted_vacates hf).limbo (h.but p) ?_ (fun u e => h.next_quiet hf e) (fun _ => by rw [State.next, hf])
    fun on => by rw [here] at on; exact on
  rw [here]
  exact ⟨(h.ports p).bounded, fun e => absurd e live, fun a => absurd ((h.ports p).quietUnderReset a).1 live, fun _ e => by cases e⟩

theorem State.accepted_rested (h : s.Lawful) (p : Port) (y : Option Slot) : (s.accepted p y).Rested :=
  (s.accepted_booksKept p y).rested h.rested

theorem State.accepted_task_ne (s : State) (ne : y ≠ some u) : (s.accepted p y).task u = s.task u := by
  rw [State.accepted, settlePort, State.updPort_task, State.occupied_task, if_neg ne]

/-- The task that leaves the port becomes what its disposition says (R64). -/
theorem applyDisposition_lawful (h : s.Limbo (· = x) Nobody) (r : s.Rested) {d : Disposition} (departs : d ≠ .stay)
    (waits : (s.task x).wait.isSome ↔ d = .wait) (doomed : (s.task x).doomed = true ↔ d = .free) :
    (applyDisposition x (some d) s).Lawful := by
  have no_wait (ne : d ≠ .wait) : (s.task x).wait = none := by simpa using mt waits.1 ne
  have not_doomed (ne : d ≠ .free) : (s.task x).doomed = false := by simpa using mt doomed.1 ne
  have settle {g : TaskRecord → TaskRecord} (outside : (g (s.task x)).state.Away) (not_free : (g (s.task x)).state ≠ .free)
      (wait : (g (s.task x)).wait = (s.task x).wait) (doom : (g (s.task x)).doomed = false)
      (waiting : d = .wait ↔ (g (s.task x)).state = .waiting) : (s.updTask x g).Lawful := by
    have kept := BooksKept.updTask (s := s) (t := x) (f := g) wait fun e => absurd e not_free
    have limbo := h.updTask rfl (kept.books h.books)
    have task : (s.updTask x g).task x = g (s.task x) := State.updTask_task_self ..
    refine State.lawful_iff.2 ⟨limbo.sound (by rw [State.states, task]; exact outside) (limbo.recordLaw rfl ?_ ?_), kept.rested r⟩
    · rw [State.states, task, wait, waits, waiting]
    · rw [task, doom]
  cases d with
  | readyHead => exact h.readyHead_lawful r (no_wait (by simp)) (not_doomed (by simp))
  | readyTail => exact h.readyTail_lawful r (no_wait (by simp)) (not_doomed (by simp))
  | wait => exact settle (g := fun r => { r with state := .waiting }) (by simp [TaskState.Away]) (by simp) rfl (not_doomed (by simp)) (by simp)
  | held =>
    exact settle (g := fun r => { r with state := .held, holdCause := some .command }) (by simp [TaskState.Away]) (by simp) rfl
      (not_doomed (by simp)) (by simp)
  | free => exact h.retire (no_wait (by simp)) r.exchanges r.timerOrder fun _ => r.headBlocked
  | stay => exact absurd rfl departs

theorem acceptSwitch_lawful (h : s.Lawful) {f : Offer} (hf : (s.port p).occ.offer = some f) (switch : f.kind = .switchTask) :
    (acceptSwitch p f.incoming s).Lawful := by
  have limbo := h.sound.accepted hf
  have rested := State.accepted_rested h p f.incoming
  have claim (u : Slot) (i : s.isIncoming p u = true) : f.incoming = some u := by simpa [State.isIncoming, hf, switch] using i
  rw [acceptSwitch_eq]
  cases o : (s.port p).occ.occupant with
  | none =>
    simp only
    have nobody : (fun u => s.Holds p u ∧ f.incoming ≠ some u) = Nobody := by
      funext u
      refine propext ⟨fun ⟨k, ne⟩ => k.elim (fun e => ?_) fun i => ne (claim u i), False.elim⟩
      rw [o] at e; cases e
    rw [nobody] at limbo
    exact State.lawful_iff.2 ⟨State.limbo_nobody.1 limbo, rested⟩
  | some x =>
    simp only
    have ne : f.incoming ≠ some x := fun e => by
      have i : s.isIncoming p x = true := by simp [State.isIncoming, hf, switch, e]
      have running := h.dispatcher.states_occupant o
      rw [(h.dispatcher.arranged.incomings x).2 ⟨p, i⟩] at running
      cases running
    have only : (fun u => s.Holds p u ∧ f.incoming ≠ some u) = (· = x) := by
      funext u
      refine propext ⟨fun ⟨k, no⟩ => k.elim (fun e => Option.some.inj (e.symm.trans o)) fun i => absurd (claim u i) no, ?_⟩
      rintro rfl
      exact ⟨.inl o, ne⟩
    rw [only] at limbo
    obtain ⟨waits, doomed⟩ := h.sound.occupant_record o
    obtain ⟨d, hd⟩ := Option.isSome_iff_exists.1 ((h.dispatcher.fits p).disposition.1.2 ⟨by rw [hf]; rfl, by rw [o]; rfl⟩)
    rw [hd] at waits doomed ⊢
    refine applyDisposition_lawful limbo rested (fun stay => ?_) (by rw [s.accepted_task_ne ne]; simpa using waits)
      (by rw [s.accepted_task_ne ne]; simpa using doomed)
    have continues := ((h.dispatcher.fits p).disposition.2 f hf).1 (stay ▸ hd)
    rw [switch] at continues
    cases continues.1

/-- The accept of a CONTINUE offer is that of an offer of the occupant itself. -/
theorem acceptContinue_eq (p : Port) (s : State) : acceptContinue p s = s.accepted p (s.port p).occ.occupant := by
  have same : (s.updOcc p fun o => { o with occupant := (s.port p).occ.occupant }) = s := by
    cases p <;> rfl
  unfold acceptContinue State.accepted State.occupied
  cases o : (s.port p).occ.occupant <;> rw [o] at same <;> simp only [same]

theorem acceptContinue_lawful (h : s.Lawful) {f : Offer} (hf : (s.port p).occ.offer = some f) (k : f.kind = .continueTask) :
    (acceptContinue p s).Lawful := by
  have same := (h.dispatcher.fits p).continues f hf k
  have limbo := h.sound.accepted hf
  have nobody : (fun u => s.Holds p u ∧ f.incoming ≠ some u) = Nobody := by
    funext u
    refine propext ⟨fun ⟨k', ne⟩ => k'.elim (fun e => ne (same.trans e)) fun i => ?_, False.elim⟩
    simp [State.isIncoming, hf, k] at i
  rw [acceptContinue_eq, ← same]
  rw [nobody] at limbo
  exact State.lawful_iff.2 ⟨State.limbo_nobody.1 limbo, State.accepted_rested h p _⟩

theorem takeAccept_lawful (h : s.Lawful) (value : Byte) : (takeAccept p value s).Lawful := by
  unfold takeAccept
  split
  · exact setAcceptStatus_lawful h _
  · cases hf : (s.port p).occ.offer with
    | none => exact setAcceptStatus_lawful h _
    | some f =>
      simp only
      split
      · exact setAcceptStatus_lawful h _
      · cases k : f.kind with
        | switchTask => exact acceptSwitch_lawful h hf k
        | continueTask => exact acceptContinue_lawful h hf k

end

end Sys2Proof.Machine

/-! ## Port loss, PORT.ENABLE and device reset keep the laws (R177 to R183) -/

namespace Sys2Proof.Machine

section
variable {s s' : State} {v away : Slot → Prop} {p : Port} {x t u : Slot} {y : Option Slot}

/-! ### Port loss (R180, R181) -/

/-- The end of a port loss, after the occupant: PEER_DOWN, the removed incoming, and the serving. -/
def endLoss (q : Port) (on : Bool) (offer : Option Offer) (mustServe : Bool) (s : State) : State :=
  let s₃ := if on then s.raise q .peerDown else s
  let s₄ :=
    match offer with
    | some o => if o.kind = OfferKind.switchTask then displace o.incoming s₃ else s₃
    | none => s₃
  if mustServe then serve s₄ else s₄

theorem losePortWhole_eq (p : Port) (s : State) :
    losePortWhole p s =
      match (s.port p).occ.occupant with
      | none => endLoss (otherPort p) (s.port p).isEnabled (s.port p).occ.offer false (shutPort p s)
      | some x =>
        if (s.task x).doomed then
          endLoss (otherPort p) (s.port p).isEnabled (s.port p).occ.offer (s.ownsRun x) (freeSlot x (shutPort p s))
        else
          endLoss (otherPort p) (s.port p).isEnabled (s.port p).occ.offer
            ((s.port p).occ.disposition == some .wait && s.isPageHead x)
            (loseOccupant x (s.port p).occ.disposition (shutPort p s)) := by
  cases o : (s.port p).occ.occupant with
  | none =>
    simp only [losePortWhole, o]
    rfl
  | some x =>
    cases d : (s.task x).doomed with
    | false =>
      simp only [losePortWhole, o, d]
      rfl
    | true =>
      simp only [losePortWhole, o, d]
      rfl

/-- The laws between the loss of the occupant and the end of the loss. -/
structure State.Losing (s : State) (incoming : Slot → Prop) (mustServe : Bool) : Prop where
  limbo : s.Limbo incoming Nobody
  exchanges : ∀ x, (s.exchange x).state.Lawful
  timers : s.TimerOrder
  blocked : mustServe = false → s.HeadBlocked
  quiet : ∀ u, incoming u → (s.task u).wait = none ∧ (s.task u).doomed = false

theorem State.Losing.kept {incoming : Slot → Prop} {must : Bool} (h : s.Losing incoming must) (limbo : s'.Limbo incoming Nobody)
    (kept : BooksKept s s') (doomed : ∀ u, (s'.task u).doomed = (s.task u).doomed) : s'.Losing incoming must where
  limbo := limbo
  exchanges z := by rw [kept.exchange]; exact h.exchanges z
  timers := by simpa only [State.TimerOrder, kept.time] using h.timers
  blocked e := (h.blocked e).congr (by rw [kept.pool]) fun u hu => ⟨by rwa [kept.pool] at hu, kept.wait u⟩
  quiet u hu := by rw [kept.wait, doomed]; exact h.quiet u hu

theorem State.Losing.congr {a b : Slot → Prop} {must : Bool} (h : s.Losing a must) (same : ∀ u, a u ↔ b u) : s.Losing b must := by
  obtain rfl : a = b := funext fun u => propext (same u)
  exact h

theorem State.Losing.served {must : Bool} (h : s.Losing Nobody must) : (if must then serve s else s).Lawful := by
  have sound := State.limbo_nobody.1 h.limbo
  cases must with
  | true => exact serve_lawful sound h.exchanges h.timers
  | false => exact State.lawful_iff.2 ⟨sound, h.exchanges, h.timers, h.blocked rfl⟩

/-- The removed incoming enters the head of its level and is placed. -/
theorem State.Losing.displace {must : Bool} (h : s.Losing (fun u => y = some u) must) : (displace y s).Losing Nobody must := by
  cases y with
  | none =>
    exact h.congr fun u => iff_of_false (by simp) id
  | some t =>
    obtain ⟨wait, doomed⟩ := h.quiet t rfl
    have limbo : s.Limbo (· = t) Nobody := by simpa only [Option.some.injEq, eq_comm] using h.limbo
    have frame := readyHead_frame t s
    obtain ⟨-, exchanges, timers, blocked, -⟩ := h
    have kept := frame.booksKept
    exact ⟨State.limbo_nobody.2 (limbo.readyHead wait doomed), fun z => by
      rw [show (Machine.displace (some t) s).exchange z = s.exchange z from kept.exchange z]; exact exchanges z,
      by simpa only [State.TimerOrder, Machine.displace, kept.time] using timers,
      fun e => (blocked e).congr (by rw [Machine.displace, kept.pool]) fun u hu =>
        ⟨by rwa [Machine.displace, kept.pool] at hu, kept.wait u⟩, fun _ => False.elim⟩

theorem endLoss_lawful {q : Port} {on must : Bool} {offer : Option Offer}
    (h : s.Losing (fun u => ∃ f, offer = some f ∧ f.kind = .switchTask ∧ f.incoming = some u) must) :
    (endLoss q on offer must s).Lawful := by
  have raised : (if on then s.raise q .peerDown else s).Losing
      (fun u => ∃ f, offer = some f ∧ f.kind = .switchTask ∧ f.incoming = some u) must := by
    split
    · exact h.kept (h.limbo.raise q _) (BooksKept.updPort s q _) fun u => by rw [State.raise, State.updPort_task]
    · exact h
  unfold endLoss
  cases offer with
  | none => exact (raised.congr fun u => iff_of_false (by simp) id).served
  | some f =>
    simp only
    by_cases k : f.kind = .switchTask
    · rw [if_pos k]
      exact (State.Losing.displace (raised.congr fun u => by simp [k])).served
    · rw [if_neg k]
      exact (raised.congr fun u => iff_of_false (by simp [k]) id).served

theorem shutPort_port (p : Port) (s : State) (q : Port) :
    (shutPort p s).port q =
      if p = q then { s.port p with lifecycle := .disabled, occ := (s.port p).occ.lost, unit := (s.port p).unit.lost } else s.port q := by
  rw [shutPort, State.updPort_port]

theorem shutPort_vacates (p : Port) (s : State) : Vacates p none s (shutPort p s) := by
  have here := (shutPort_port p s p).trans (if_pos rfl)
  exact ⟨fun _ e => (by cases e), by rw [here]; rfl, by rw [here]; rfl, by rw [here]; rfl,
    fun q ne => (shutPort_port p s q).trans (if_neg ne), fun l => by simp [shutPort], fun u => by simp [shutPort],
    BooksKept.updPort s p _⟩

/-- After the port's own records both its occupant and its incoming are in limbo. -/
theorem State.SoundBut.shut (h : s.SoundBut p) : (shutPort p s).Limbo (s.Holds p) Nobody := by
  have here := (shutPort_port p s p).trans (if_pos rfl)
  have off : ((shutPort p s).port p).isEnabled ≠ true := by rw [here]; simp [PortRecord.isEnabled]
  have limbo := (shutPort_vacates p s).limbo h ?_ (fun _ e => by cases e) (fun on => absurd on off) fun on => absurd on off
  · simpa only [ne_eq, reduceCtorEq, not_false_eq_true, and_true] using limbo
  · rw [here]
    exact ⟨⟨Nat.zero_le _, Nat.zero_le _, fun _ e => by cases e⟩, fun _ => ⟨rfl, rfl, rfl⟩, fun _ => ⟨rfl, rfl, rfl⟩,
      fun _ e => by cases e⟩

/-- The occupant that is HELD with cause PORT_LOST (R180). -/
def TaskRecord.portLost (r : TaskRecord) : TaskRecord := { r with state := .held, holdFlag := false, holdCause := some .portLost }

theorem loseOccupant_wait (x : Slot) (s : State) :
    loseOccupant x (some .wait) s = (cancelWait x s).updTask x fun r => { r with delivery := some .lost }.portLost := by
  rw [loseOccupant, if_pos rfl]
  simp only [updTask_updTask]
  rfl

theorem loseOccupant_other {d : Option Disposition} (x : Slot) (s : State) (h : d ≠ some .wait) :
    loseOccupant x d s = s.updTask x TaskRecord.portLost := by
  rw [loseOccupant, if_neg h]
  rfl

/-- A task in limbo with no wait and no doom is HELD. -/
theorem State.Limbo.held {w : Slot → Prop} (h : s.Limbo v Nobody) (hv : v x) (out : ∀ u, w u ↔ v u ∧ u ≠ x) {g : TaskRecord → TaskRecord}
    (held : (g (s.task x)).state = .held) (wait : (s.task x).wait = none) (wait' : (g (s.task x)).wait = none)
    (doomed : (g (s.task x)).doomed = false) : (s.updTask x g).Limbo w Nobody := by
  have kept := BooksKept.updTask (s := s) (t := x) (f := g) (wait'.trans wait.symm) fun e => by rw [held] at e; cases e
  have limbo := h.updTask hv (kept.books h.books)
  have task : (s.updTask x g).task x = g (s.task x) := State.updTask_task_self ..
  refine limbo.settle out (by rw [State.states, task, held]; exact away_held) (limbo.recordLaw hv ?_ (by rw [task]; exact doomed))
  rw [State.states, task, held, wait']
  simp

theorem losePortWhole_lawful (h : s.SoundBut p) (r : s.Rested) : (losePortWhole p s).Lawful := by
  have shut := h.shut
  have kept : BooksKept s (shutPort p s) := BooksKept.updPort s p _
  have rested := kept.rested r
  have task (u : Slot) : (shutPort p s).task u = s.task u := State.updPort_task ..
  have incoming (u : Slot) : (∃ f, (s.port p).occ.offer = some f ∧ f.kind = .switchTask ∧ f.incoming = some u) ↔
      s.isIncoming p u = true := by
    unfold State.isIncoming
    cases (s.port p).occ.offer <;> simp
  have same : (fun u => ∃ f, (s.port p).occ.offer = some f ∧ f.kind = .switchTask ∧ f.incoming = some u) =
      fun u => s.isIncoming p u = true := funext fun u => propext (incoming u)
  rw [losePortWhole_eq]
  cases o : (s.port p).occ.occupant with
  | none =>
    simp only
    refine endLoss_lawful ?_
    rw [same]
    have only : s.Holds p = fun u => s.isIncoming p u = true := by
      funext u
      simp [State.Holds, o]
    exact ⟨only ▸ shut, rested.exchanges, rested.timerOrder, fun _ => rested.headBlocked, fun u hu => by
      rw [task]; exact h.dispatcher.incoming_record hu (h.records u)⟩
  | some x =>
    obtain ⟨waits, doomed⟩ := h.dispatcher.occupant_record o (h.records x)
    have ne_incoming (u : Slot) (i : s.isIncoming p u = true) : u ≠ x := by
      rintro rfl
      have running := h.dispatcher.states_occupant o
      rw [(h.dispatcher.arranged.incomings u).2 ⟨p, i⟩] at running
      cases running
    have holds : s.Holds p = fun u => s.isIncoming p u = true ∨ u = x := by
      funext u
      simp only [State.Holds, o, Option.some.injEq, eq_comm (a := x), or_comm]
    have here : s.Holds p x := .inl o
    have out (u : Slot) : s.isIncoming p u = true ↔ s.Holds p u ∧ u ≠ x := by
      rw [holds]
      exact ⟨fun i => ⟨.inl i, ne_incoming u i⟩, fun k => k.1.resolve_right k.2⟩
    simp only
    split
    · next is_doomed =>
      refine endLoss_lawful ?_
      rw [same]
      have free := doomed.1 is_doomed
      have wait : (s.task x).wait = none := by
        rw [free] at waits
        simpa using waits
      have objects := freeSlot_objects x (shutPort p s)
      refine ⟨State.Limbo.freeSlot (holds ▸ shut) (by rw [task]; exact wait) ne_incoming, objects.exchangesLawful rested.exchanges,
        objects.timerOrder rested.timerOrder, fun no_runs => ?_, fun u hu => ?_⟩
      · have none_owned : s.pool.runsOf x = [] := by simpa [State.ownsRun] using no_runs
        have pool : (freeSlot x (shutPort p s)).pool = (shutPort p s).pool :=
          (freeSlot_pool x _).trans (PagePool.releaseRuns_of_nil (by rw [kept.pool]; exact none_owned))
        refine rested.headBlocked.congr (by rw [pool]) fun u hu => ⟨by rwa [pool] at hu, ?_⟩
        by_cases e : u = x
        · rw [e, freeSlot_task_self, task, wait]; rfl
        · rw [freeSlot_task_ne _ e]
      · rw [freeSlot_task_ne _ (ne_incoming u hu), task]
        exact h.dispatcher.incoming_record hu (h.records u)
    · next not_doomed =>
      have not_doomed : (s.task x).doomed = false := Bool.not_eq_true _ ▸ not_doomed
      refine endLoss_lawful ?_
      rw [same]
      by_cases d : (s.port p).occ.disposition = some .wait
      · rw [d, loseOccupant_wait]
        have cancelled := State.Limbo.cancelWait (away' := Nobody) shut here fun _ _ => .rfl
        have objects := (cancelWait_frame x (shutPort p s)).objects
        refine ⟨cancelled.held here out rfl (by rw [cancelWait_task]) ?_ ?_, fun z => objects.exchangesLawful rested.exchanges z,
          objects.timerOrder rested.timerOrder, fun not_head => ?_, fun u hu => ?_⟩
        · rw [cancelWait_task]; rfl
        · rw [cancelWait_task, task]; exact not_doomed
        · have not_head : s.isPageHead x = false := by simpa using not_head
          refine (cancelWait_headBlocked rested.headBlocked (t := x) ?_).congr rfl fun u hu => ⟨hu, ?_⟩
          · rw [State.isPageHead, kept.pool]; exact not_head
          · rw [State.updTask_task]
            split
            · next e => subst e; rfl
            · rfl
        · rw [State.updTask_task_ne _ _ (ne_incoming u hu).symm, cancelWait_task_ne _ (ne_incoming u hu), task]
          exact h.dispatcher.incoming_record hu (h.records u)
      · rw [loseOccupant_other _ _ d]
        have wait : (s.task x).wait = none := by simpa using mt waits.1 d
        have lost := BooksKept.updTask (s := shutPort p s) (t := x) (f := TaskRecord.portLost) rfl fun e => by cases e
        have rested := lost.rested rested
        refine ⟨shut.held here out rfl (by rw [task]; exact wait) (by rw [task]; exact wait) (by rw [task]; exact not_doomed),
          rested.exchanges, rested.timerOrder, fun _ => rested.headBlocked, fun u hu => ?_⟩
        rw [State.updTask_task_ne _ _ (ne_incoming u hu).symm, task]
        exact h.dispatcher.incoming_record hu (h.records u)

theorem prstAssert_lawful (h : s.Lawful) (p : Port) : (losePortWhole p (s.updPort p fun r => { r with prst := true })).Lawful :=
  losePortWhole_lawful (h.sound.setPrst p true) ((BooksKept.updPort s p _).rested h.rested)

theorem prstRelease_lawful (h : s.Lawful) (p : Port) : (s.updPort p fun r => { r with prst := false }).Lawful :=
  h.updPort ⟨rfl, rfl, rfl, rfl⟩
    ⟨(h.ports p).bounded, (h.ports p).quietWhenDisabled, fun e => (by cases e), (h.ports p).sequenceFits⟩

/-! ### PORT.ENABLE (R178) -/

theorem enablePort_lawful (h : s.Lawful) (released : (s.port p).prst = false) :
    (enablePort p s).Lawful := by
  have port (q : Port) : (s.updPort p fun r => { r with lifecycle := .enabled }).port q =
      if p = q then { s.port p with lifecycle := .enabled } else s.port q := State.updPort_port ..
  have here := (port p).trans (if_pos rfl)
  have there (q : Port) (ne : p ≠ q) := (port q).trans (if_neg ne)
  have occ (q : Port) : ((s.updPort p fun r => { r with lifecycle := .enabled }).port q).occ = (s.port q).occ := by
    rw [port]
    split
    · next e => rw [e]
    · rfl
  have incoming (q : Port) (u : Slot) : (s.updPort p fun r => { r with lifecycle := .enabled }).isIncoming q u = s.isIncoming q u := by
    simp only [State.isIncoming, occ]
  have states : (s.updPort p fun r => { r with lifecycle := .enabled }).states = s.states := by
    funext u; simp [State.states]
  have kept : BooksKept s (s.updPort p fun r => { r with lifecycle := .enabled }) := BooksKept.updPort s p _
  have revising : (s.updPort p fun r => { r with lifecycle := .enabled }).Revising p Nobody := by
    refine ⟨fun q => ?_, ⟨?_, fun _ => .inl rfl, fun q ne => ?_, ?_, ?_, ?_⟩, fun q ne => ?_, fun q u hu => ?_, fun u => ?_,
      kept.books h.sound.books⟩
    · by_cases e : p = q
      · subst e
        rw [here]
        exact ⟨(h.ports p).bounded, fun e => (by cases e), fun a => (by rw [released] at a; cases a), (h.ports p).sequenceFits⟩
      · rw [there q e]; exact h.ports q
    · rw [states]
      exact h.dispatcher.arranged.reprioritised (by simp) (by simp) (fun q => by rw [occ]) fun q => by rw [occ]
    · rw [there q ne]; exact h.dispatcher.fits q
    · rw [here]; exact fun e => by cases e
    · rw [occ]; exact (h.dispatcher.fits p).continues
    · rw [occ]; exact (h.dispatcher.fits p).redecidable
    · refine (State.urgencyLaw_iff.1 h.urgency q).congr states (by simp) (by simp) ?_ (by rw [there q ne])
      simp only [State.next, occ]
    · rw [occ, incoming] at hu
      rw [State.updPort_task]
      exact h.affinity q u hu
    · exact (h.sound.records u).congr (by simp) (by simp) (by rw [states]) fun d _ => by simp only [State.Leaving, occ]
  exact (revising.redecide_lawful (kept.rested h.rested)).raise _ _

/-! ### Device reset (R183) -/

@[simp] theorem deviceReset_task (s : State) (t : Slot) : (deviceReset s).task t = blankTask 0 := by
  simp [deviceReset, State.reset, State.task]

@[simp] theorem deviceReset_states (s : State) (t : Slot) : (deviceReset s).states t = .free := by
  rw [State.states, deviceReset_task]; rfl

@[simp] theorem deviceReset_queue (s : State) (l : Fin 32) : (deviceReset s).queue l = [] := by
  simp [deviceReset, State.reset, State.queue]

@[simp] theorem deviceReset_port (s : State) (p : Port) : (deviceReset s).port p = (s.port p).deviceReset := by
  cases p <;> rfl

@[simp] theorem deviceReset_occ (r : PortRecord) : r.deviceReset.occ = resetOccupancy := rfl

@[simp] theorem deviceReset_exchange (s : State) (z : Fin 16) : (deviceReset s).exchange z = ⟨0, .closed⟩ := by
  simp [deviceReset, State.reset, State.exchange]

@[simp] theorem deviceReset_line (s : State) (l : Line) : (deviceReset s).line l = resetLine := by
  simp [deviceReset, State.reset, State.line]

@[simp] theorem deviceReset_isIncoming (s : State) (p : Port) (t : Slot) : (deviceReset s).isIncoming p t = false := by
  simp [State.isIncoming, resetOccupancy]

@[simp] theorem deviceReset_entries (s : State) (l : WaitList) : (deviceReset s).entries l = [] := by
  cases l <;> simp [State.entries, resetLine] <;> rfl

theorem PortRecord.deviceReset_lawful (r : PortRecord) : r.deviceReset.Lawful :=
  ⟨⟨Nat.zero_le _, Nat.zero_le _, fun _ e => by cases e⟩, fun _ => ⟨rfl, rfl, rfl⟩, fun _ => ⟨rfl, rfl, rfl⟩,
    fun _ e => by cases e⟩

theorem deviceReset_dispatcher (s : State) : (deviceReset s).DispatcherLaw := by
  refine State.dispatcherLaw_iff.2 ⟨⟨?_, ?_, ?_, ?_, ?_⟩, fun p => ⟨⟨?_, ?_⟩, fun _ => ?_, ?_⟩⟩ <;>
    simp [resetOccupancy]

theorem deviceReset_books (s : State) : (deviceReset s).Books Nobody where
  lists := ⟨fun l => by simp, fun l t => by simp [State.waitsIn, blankTask], fun t w e => by
    rw [deviceReset_task] at e; cases e⟩
  filters z b e := by simp [State.mailbox] at e
  cells := by
    show (64 : Nat) + _ = 64
    simp [State.reservedCells, deviceReset, State.reset, ExchangeState.cells]
  lines l := by
    rw [deviceReset_line]
    exact ⟨Nat.zero_le _, fun ne => absurd rfl ne⟩
  ticks := by
    show resetTime.Bounded
    unfold TickUnit.Bounded
    decide
  timers := ⟨List.nodup_nil, fun t d => by
    rw [deviceReset_task]
    exact iff_of_false List.not_mem_nil fun e => by cases e⟩
  pool := by
    have pool : (deviceReset s).pool = resetPool := rfl
    have no_run (e : Fin 64) : resetPool.runs[e] = none := by simp [resetPool]
    refine State.poolLaw_iff.2 ?_
    rw [pool]
    refine ⟨by decide, by decide, fun k e => ?_, fun e r hr => ?_, ?_⟩
    · simp only [PagePool.Covers, no_run]
      simp [resetPool]
    · rw [no_run] at hr; cases hr
    · rw [← PagePool.sum_runList, PagePool.runList_eq]
      simp [no_run]
      rfl

/-- Device reset gives a state that meets the laws (R183). -/
theorem deviceReset_lawful (s : State) : (deviceReset s).Lawful :=
  State.lawful_iff.2 ⟨⟨fun p => by rw [deviceReset_port]; exact (s.port p).deviceReset_lawful, deviceReset_dispatcher s,
    State.urgencyLaw_iff.2 fun p t r => (by rw [deviceReset_states] at r; cases r), fun p t hu => by simp [resetOccupancy] at hu,
    fun t => ⟨by simp [blankTask, State.Leaving, resetOccupancy], by simp [blankTask, State.Leaving, resetOccupancy]⟩,
    deviceReset_books s⟩, fun z => by rw [deviceReset_exchange]; trivial, ⟨List.Pairwise.nil, fun e he => by cases he⟩, fun t e => by cases e⟩

/-- The RST input goes to a level. -/
theorem State.Lawful.setRst (h : s.Lawful) (b : Bool) : { s with rst := b }.Lawful :=
  h.adjust ⟨fun _ => rfl, fun _ => rfl, fun p => by cases p <;> rfl, fun _ => rfl, rfl, rfl, fun _ => rfl, rfl⟩ rfl h.lines h.ticks

end

end Sys2Proof.Machine

/-! ## Every command keeps the laws (R168, R169) -/

namespace Sys2Proof.Machine

/-- The reply of a command leaves a state that meets the laws, and its bytes fit the result list (R163). -/
structure Reply.Lawful (r : Reply) : Prop where
  state : r.state.Lawful
  bytes : r.bytes.length ≤ 8

/-- What comes of a row meets the laws. -/
def Lawfully (o : Host.Outcome State Fault Refusal) : Prop := ∀ u, o = .next u → u.Lawful

section
variable {s : State} {p : Port} {x t : Slot} {r : Result} {bytes params : List Byte}

theorem lawfully_next (h : s.Lawful) : Lawfully (.next s) := fun u e => by cases e; exact h

/-! ### The checks (R169) -/

theorem refuse_lawful (h : s.Lawful) (r : Result) : (refuse r s).Lawful := ⟨h, Nat.zero_le _⟩

theorem done_lawful (h : s.Lawful) (bytes : List Byte) (len : bytes.length ≤ 8 := by decide) : (done bytes s).Lawful := ⟨h, len⟩

theorem take_lawful {c : CommandCode} {k : List Byte → State → State} (h : s.Lawful)
    (keeps : ∀ params, s.Submitted p c params → (k params s).Lawful) : Lawfully (take p c k s) := by
  unfold take
  cases e : (s.port p).unit.command with
  | none => exact lawfully_next h
  | some sub =>
    simp only
    split
    · next code => exact lawfully_next (keeps sub.params (by rw [State.Submitted, e, ← code]))
    · exact lawfully_next h

theorem command_lawful {c : CommandCode} {body : List Byte → State → Reply} (h : s.Lawful)
    (keeps : ∀ params, s.Submitted p c params → (body params s).Lawful) : Lawfully (command p c body s) :=
  take_lawful h fun params sub => complete_lawful (keeps params sub).state (keeps params sub).bytes

theorem isCaller_of_callerOf (h : s.callerOf p = .ok x) : s.IsCaller p x := by
  unfold State.callerOf at h
  cases o : (s.port p).occ.occupant with
  | none => rw [o] at h; cases h
  | some y =>
    rw [o] at h
    simp only at h
    split at h
    · cases h
    · next not_doomed =>
      split at h
      · cases h
      · next stays =>
        cases h
        exact ⟨o, Bool.not_eq_true _ ▸ not_doomed, fun e => stays (.inl e), fun e => stays (.inr e)⟩

theorem withCaller_lawful (h : s.Lawful) {k : Slot → Reply} (keeps : ∀ x, s.IsCaller p x → (k x).Lawful) :
    (withCaller p s k).Lawful := by
  unfold withCaller
  cases e : s.callerOf p with
  | error r => exact refuse_lawful h r
  | ok x => exact keeps x (isCaller_of_callerOf e)

theorem withWaiter_lawful (h : s.Lawful) (option : Byte) {k : Option Slot → Reply}
    (keeps : ∀ caller, (∀ x, caller = some x → s.IsCaller p x) → (k caller).Lawful) : (withWaiter p option s k).Lawful := by
  unfold withWaiter
  split
  · exact withCaller_lawful h fun x caller => keeps _ fun y e => Option.some.inj e ▸ caller
  · exact keeps none fun y e => by cases e

theorem withTask_lawful (h : s.Lawful) (v : Half) {k : Slot → Reply} (keeps : ∀ t, s.namedTask v = .ok t → (k t).Lawful) :
    (withTask v s k).Lawful := by
  unfold withTask
  cases e : s.namedTask v with
  | error r => exact refuse_lawful h r
  | ok t => exact keeps t e

theorem withExchange_lawful (h : s.Lawful) (id : Byte) {k : Fin 16 → Reply}
    (keeps : ∀ y, s.namedExchange id = .ok y → (k y).Lawful) : (withExchange id s k).Lawful := by
  unfold withExchange
  cases e : s.namedExchange id with
  | error r => exact refuse_lawful h r
  | ok y => exact keeps y e

/-- A named task is not FREE (R4). -/
theorem namedTask_live {v : Half} (h : s.namedTask v = .ok t) : s.states t ≠ .free := by
  unfold State.namedTask at h
  cases slot : handleSlot v with
  | none => rw [slot] at h; cases h
  | some u =>
    rw [slot] at h
    simp only at h
    split at h
    · next live => cases h; exact live.2.1
    · cases h

/-! ### The task commands (R12 to R23, R40, R122) -/

theorem holdTask_bytes (t : Slot) (s : State) : (holdTask t s).bytes = [] := by
  unfold holdTask
  repeat' split
  all_goals rfl

theorem releaseTask_bytes (t : Slot) (s : State) : (releaseTask t s).bytes = [] := by
  unfold releaseTask
  repeat' split
  all_goals rfl

theorem setAffinity_bytes (t : Slot) (a : Affinity) (s : State) : (setAffinity t a s).bytes = [] := by
  unfold setAffinity
  simp only
  split <;> rfl

theorem lowestFree_free (h : s.lowestFree = some t) : s.states t = .free := by
  unfold State.lowestFree at h
  have free := List.find?_some h
  exact beq_iff_eq.1 free

theorem execTaskCreate_lawful (h : s.Lawful) (p : Port) : Lawfully (execTaskCreate p s) := by
  refine command_lawful h fun params _ => ?_
  split
  · split
    · split
      · exact refuse_lawful h _
      · next t found =>
        exact done_lawful (h.create (lowestFree_free found) rfl rfl rfl) _ (by simp [halfBytes])
    · exact refuse_lawful h _
  · exact refuse_lawful h _

theorem execTaskStart_lawful (h : s.Lawful) (p : Port) : Lawfully (execTaskStart p s) := by
  refine command_lawful h fun params _ => ?_
  split
  · refine withTask_lawful h _ fun t _ => ?_
    split
    · next dormant => exact done_lawful (readyTail_lawful h dormant) _
    · exact refuse_lawful h _
  · exact refuse_lawful h _

theorem execTaskDelete_lawful (h : s.Lawful) (p : Port) : Lawfully (execTaskDelete p s) := by
  refine command_lawful h fun params _ => ?_
  split
  · exact withTask_lawful h _ fun t _ => done_lawful (deleteTask_lawful h t) _
  · exact refuse_lawful h _

theorem execTaskExit_lawful (h : s.Lawful) (p : Port) : Lawfully (execTaskExit p s) := by
  refine command_lawful h fun params _ => ?_
  split
  · exact withCaller_lawful h fun x caller => done_lawful (exitTask_lawful h caller) _
  · exact refuse_lawful h _

theorem execTaskHold_lawful (h : s.Lawful) (p : Port) : Lawfully (execTaskHold p s) := by
  refine command_lawful h fun params _ => ?_
  split
  · exact withTask_lawful h _ fun t _ => ⟨holdTask_lawful h t, by rw [holdTask_bytes]; decide⟩
  · exact refuse_lawful h _

theorem execTaskRelease_lawful (h : s.Lawful) (p : Port) : Lawfully (execTaskRelease p s) := by
  refine command_lawful h fun params _ => ?_
  split
  · exact withTask_lawful h _ fun t _ => ⟨releaseTask_lawful h t, by rw [releaseTask_bytes]; decide⟩
  · exact refuse_lawful h _

theorem execTaskSetpri_lawful (h : s.Lawful) (p : Port) : Lawfully (execTaskSetpri p s) := by
  refine command_lawful h fun params _ => ?_
  split
  · split
    · exact refuse_lawful h _
    · exact withTask_lawful h _ fun t _ => done_lawful (setPriority_lawful h t _) _
  · exact refuse_lawful h _

theorem execTaskSetaff_lawful (h : s.Lawful) (p : Port) : Lawfully (execTaskSetaff p s) := by
  refine command_lawful h fun params _ => ?_
  split
  · split
    · exact refuse_lawful h _
    · exact withTask_lawful h _ fun t _ => ⟨setAffinity_lawful h t _, by rw [setAffinity_bytes]; decide⟩
  · exact refuse_lawful h _

theorem execTaskSetctx_lawful (h : s.Lawful) (p : Port) : Lawfully (execTaskSetctx p s) := by
  refine command_lawful h fun params _ => ?_
  split
  · refine withTask_lawful h _ fun t _ => ?_
    split
    · exact done_lawful (h.updTask rfl rfl rfl rfl rfl) _
    · exact refuse_lawful h _
  · exact refuse_lawful h _

theorem execTaskQuery_lawful (h : s.Lawful) (p : Port) : Lawfully (execTaskQuery p s) := by
  refine command_lawful h fun params _ => ?_
  split
  · exact withTask_lawful h _ fun t _ => done_lawful h _ (by simp [State.taskSnapshot])
  · exact refuse_lawful h _

theorem execTaskSelf_lawful (h : s.Lawful) (p : Port) : Lawfully (execTaskSelf p s) := by
  refine command_lawful h fun params _ => ?_
  split
  · exact withCaller_lawful h fun x _ => done_lawful h _ (by simp [halfBytes])
  · exact refuse_lawful h _

theorem execTaskYield_lawful (h : s.Lawful) (p : Port) : Lawfully (execTaskYield p s) := by
  refine command_lawful h fun params _ => ?_
  split
  · exact withCaller_lawful h fun x caller => done_lawful (yieldPort_lawful h caller) _
  · exact refuse_lawful h _

theorem execTaskDelay_lawful (h : s.Lawful) (p : Port) : Lawfully (execTaskDelay p s) := by
  refine command_lawful h fun params _ => ?_
  split
  · refine withCaller_lawful h fun x caller => ?_
    split
    · exact refuse_lawful h _
    · next timed => exact ⟨h.beginWait caller .delay (s.deadlineIn_fits timed), Nat.zero_le _⟩
  · exact refuse_lawful h _

end

end Sys2Proof.Machine

/-! ## Every row keeps the laws: exchanges, lines, pages, time, ports and the window -/

namespace Sys2Proof.Machine

section
variable {s : State} {p : Port} {x t : Slot} {r : Result} {bytes params : List Byte}

theorem one_le_toNat {n : Nat} {v : BitVec n} (h : v ≠ 0) : 1 ≤ v.toNat :=
  Nat.one_le_iff_ne_zero.2 fun e => h (BitVec.eq_of_toNat_eq (by simpa using e))

/-! ### The exchange commands (R74, R75, R77, R84 to R88, R98 to R102, R107, R108) -/

theorem openExchange_bytes (e : ExchangeState) (cells : Nat) (s : State) : (openExchange e cells s).bytes.length ≤ 8 := by
  unfold openExchange
  split
  · exact Nat.zero_le _
  · split <;> simp [refuse, done]

theorem waitOr_bytes (refusal : Result) (p : Port) (caller : Option Slot) (kind : WaitKind) (d : Option TickCount) (s : State) :
    (waitOr refusal p caller kind d s).bytes = [] := by
  cases caller <;> rfl

theorem sendMessage_bytes (p : Port) (caller : Option Slot) (d : Option TickCount) (id : Byte) (y : Fin 16) (m : Message)
    (s : State) : (sendMessage p caller d id y m s).bytes.length ≤ 8 := by
  unfold sendMessage
  split
  · exact Nat.zero_le _
  · split
    · simp [done]
    · split
      · simp [done]
      · rw [waitOr_bytes]; exact Nat.zero_le _

theorem receiveMessage_bytes (p : Port) (caller : Option Slot) (d : Option TickCount) (id low high : Byte) (y : Fin 16)
    (s : State) : (receiveMessage p caller d id low high y s).bytes.length ≤ 8 := by
  unfold receiveMessage
  split
  · exact Nat.zero_le _
  · split
    · simp [done, Message.bytes, halfBytes]
    · rw [waitOr_bytes]; exact Nat.zero_le _

theorem acquireUnit_bytes (p : Port) (caller : Option Slot) (d : Option TickCount) (id : Byte) (y : Fin 16) (s : State) :
    (acquireUnit p caller d id y s).bytes.length ≤ 8 := by
  unfold acquireUnit
  split
  · exact Nat.zero_le _
  · exact Nat.zero_le _
  · split
    · simp [done]
    · rw [waitOr_bytes]; exact Nat.zero_le _

theorem releaseUnit_bytes (y : Fin 16) (s : State) : (releaseUnit y s).bytes.length ≤ 8 := by
  unfold releaseUnit
  split
  · exact Nat.zero_le _
  · exact Nat.zero_le _
  · split
    · simp [done]
    · split <;> simp [done, refuse]

theorem exchangeSnapshot_length (s : State) (y : Fin 16) : (s.exchangeSnapshot y).length ≤ 8 := by
  unfold State.exchangeSnapshot
  split <;> simp

theorem execXchOpen_lawful (h : s.Lawful) (p : Port) : Lawfully (execXchOpen p s) := by
  refine command_lawful h fun params _ => ?_
  split
  · split
    · exact refuse_lawful h _
    · split
      · split
        · exact refuse_lawful h _
        · next range =>
          simp only [not_or, not_lt] at range
          obtain ⟨pos, le, -⟩ := range
          exact ⟨openExchange_lawful h ⟨one_le_toNat pos, le, Nat.zero_le _, fun e => absurd rfl e⟩ rfl rfl rfl rfl,
            openExchange_bytes _ _ _⟩
      · split
        · split
          · exact refuse_lawful h _
          · next range =>
            simp only [not_or, not_lt] at range
            obtain ⟨pos, le⟩ := range
            exact ⟨openExchange_lawful h ⟨one_le_toNat pos, Nat.le_of_lt_succ (BitVec.isLt _), le, fun e => absurd rfl e⟩ rfl rfl rfl rfl,
              openExchange_bytes _ _ _⟩
        · exact refuse_lawful h _
  · exact refuse_lawful h _

theorem execXchClose_lawful (h : s.Lawful) (p : Port) : Lawfully (execXchClose p s) := by
  refine command_lawful h fun params _ => ?_
  split
  · exact withExchange_lawful h _ fun y _ => ⟨closeExchange_lawful h y, by simp [closeExchange, done]⟩
  · exact refuse_lawful h _

theorem execXchQuery_lawful (h : s.Lawful) (p : Port) : Lawfully (execXchQuery p s) := by
  refine command_lawful h fun params _ => ?_
  split
  · exact withExchange_lawful h _ fun y _ => done_lawful h _ (exchangeSnapshot_length s y)
  · exact refuse_lawful h _

theorem execMsgSend_lawful (h : s.Lawful) (p : Port) : Lawfully (execMsgSend p s) := by
  refine command_lawful h fun params _ => ?_
  split
  · refine withWaiter_lawful h _ fun caller may => ?_
    split
    · exact refuse_lawful h _
    · next range =>
      have fits := s.deadlineOf_fits (Bool.not_eq_false _ ▸ range)
      exact withExchange_lawful h _ fun y named => ⟨sendMessage_lawful h may fits named _, sendMessage_bytes ..⟩
  · exact refuse_lawful h _

theorem execMsgRecv_lawful (h : s.Lawful) (p : Port) : Lawfully (execMsgRecv p s) := by
  refine command_lawful h fun params _ => ?_
  split
  · refine withWaiter_lawful h _ fun caller may => ?_
    split
    · exact refuse_lawful h _
    · next range =>
      have fits := s.deadlineOf_fits (Bool.not_eq_false _ ▸ (not_or.1 range).1)
      exact withExchange_lawful h _ fun y named => ⟨receiveMessage_lawful h may fits named _ _, receiveMessage_bytes ..⟩
  · exact refuse_lawful h _

theorem execCntAcquire_lawful (h : s.Lawful) (p : Port) : Lawfully (execCntAcquire p s) := by
  refine command_lawful h fun params _ => ?_
  split
  · refine withWaiter_lawful h _ fun caller may => ?_
    split
    · exact refuse_lawful h _
    · next range =>
      have fits := s.deadlineOf_fits (Bool.not_eq_false _ ▸ range)
      exact withExchange_lawful h _ fun y named => ⟨acquireUnit_lawful h may fits named, acquireUnit_bytes ..⟩
  · exact refuse_lawful h _

theorem execCntRelease_lawful (h : s.Lawful) (p : Port) : Lawfully (execCntRelease p s) := by
  refine command_lawful h fun params _ => ?_
  split
  · exact withExchange_lawful h _ fun y _ => ⟨releaseUnit_lawful h y, releaseUnit_bytes y s⟩
  · exact refuse_lawful h _

/-! ### The event lines (R131 to R140) -/

theorem execEvtConfig_lawful (h : s.Lawful) (p : Port) : Lawfully (execEvtConfig p s) := by
  refine command_lawful h fun params _ => ?_
  split
  · split
    · exact done_lawful (h.updLine rfl ⟨Nat.zero_le _, fun _ => rfl⟩) _ (by simp)
    · exact refuse_lawful h _
  · exact refuse_lawful h _

theorem execEvtWait_lawful (h : s.Lawful) (p : Port) : Lawfully (execEvtWait p s) := by
  refine command_lawful h fun params _ => ?_
  split
  · refine withWaiter_lawful h _ fun caller may => ?_
    split
    · exact refuse_lawful h _
    · next l _ =>
      split
      · exact refuse_lawful h _
      · next range =>
        split
        · next pos =>
          obtain ⟨le, empty⟩ := h.lines l
          exact done_lawful (h.updLine rfl ⟨(Nat.sub_le _ _).trans le, fun waits => by rw [empty waits] at pos; cases pos⟩) _ (by simp)
        · next no_latch =>
          have fits := s.deadlineOf_fits (Bool.not_eq_false _ ▸ range)
          exact ⟨waitOr_lawful h _ may (.event (Nat.eq_zero_of_not_pos no_latch)) fits, by rw [waitOr_bytes]; exact Nat.zero_le _⟩
  · exact refuse_lawful h _

theorem execEvtQuery_lawful (h : s.Lawful) (p : Port) : Lawfully (execEvtQuery p s) := by
  refine command_lawful h fun params _ => ?_
  split
  · split
    · exact refuse_lawful h _
    · next l _ =>
      have cleared : (s.updLine l fun r => { r with saturated := false }).Lawful := h.updLine rfl (h.lines l)
      refine done_lawful ?_ _ (by simp [State.lineSnapshot])
      split
      · exact cleared
      · exact cleared.draw _
  · exact refuse_lawful h _

/-! ### The page commands (R146 to R157) -/

theorem execPageAlloc_lawful (h : s.Lawful) (p : Port) : Lawfully (execPageAlloc p s) := by
  refine command_lawful h fun params _ => ?_
  split
  · refine withCaller_lawful h fun x caller => ?_
    split
    · exact refuse_lawful h _
    · next range =>
      simp only [not_or, not_lt] at range
      obtain ⟨pos, le, -, timed⟩ := range
      refine ⟨allocate_lawful h caller (one_le_toNat pos) le _ (s.deadlineOf_fits (Bool.not_eq_false _ ▸ timed)), ?_⟩
      unfold allocate
      split
      · simp [done]
      · split <;> exact Nat.zero_le _
  · exact refuse_lawful h _

theorem ownRun_spec {page : Byte} {e : Fin 64} {r : Run} (h : s.ownRun x page = .ok (e, r)) : s.pool.runs[e] = some r := by
  unfold State.ownRun PagePool.runAt at h
  cases first : s.pool.entryAt page.toNat with
  | none => simp only [first] at h; cases h
  | some f =>
    cases run : s.pool.runs[f] with
    | none => simp only [first, run] at h; cases h
    | some r' =>
      simp only [first, run, Option.map_some] at h
      split at h
      · cases h; exact run
      · cases h

theorem execPageFree_lawful (h : s.Lawful) (p : Port) : Lawfully (execPageFree p s) := by
  refine command_lawful h fun params _ => ?_
  split
  · refine withCaller_lawful h fun x _ => ?_
    split
    · exact refuse_lawful h _
    · split
      · exact refuse_lawful h _
      · exact done_lawful (removeAndServe_lawful h _) _ (by simp)
  · exact refuse_lawful h _

theorem execPageGive_lawful (h : s.Lawful) (p : Port) : Lawfully (execPageGive p s) := by
  refine command_lawful h fun params _ => ?_
  split
  · refine withCaller_lawful h fun x _ => ?_
    split
    · exact refuse_lawful h _
    · refine withTask_lawful h _ fun t named => ?_
      split
      · exact refuse_lawful h _
      · next run owned => exact done_lawful (giveRun_lawful h (ownRun_spec owned) (namedTask_live named)) _
  · exact refuse_lawful h _

theorem pageSnapshot_length (s : State) (page : Nat) : (s.pageSnapshot page).length ≤ 8 := by
  unfold State.pageSnapshot
  simp only
  split <;> simp [halfBytes]

theorem execPageQuery_lawful (h : s.Lawful) (p : Port) : Lawfully (execPageQuery p s) := by
  refine command_lawful h fun params _ => ?_
  split
  · split
    · exact refuse_lawful h _
    · exact done_lawful h _ (pageSnapshot_length s _)
  · exact refuse_lawful h _

theorem execPageReclaim_lawful (h : s.Lawful) (p : Port) : Lawfully (execPageReclaim p s) := by
  refine command_lawful h fun params _ => ?_
  split
  · split
    · exact refuse_lawful h _
    · split
      · exact refuse_lawful h _
      · exact done_lawful (removeAndServe_lawful h _) _ (by simp [halfBytes])
  · exact refuse_lawful h _

theorem execPageConfig_lawful (h : s.Lawful) (p : Port) : Lawfully (execPageConfig p s) := by
  refine command_lawful h fun params _ => ?_
  split
  · split
    · exact refuse_lawful h _
    · next range =>
      split
      · exact refuse_lawful h _
      · next empty =>
        simp only [not_or, not_lt] at range
        obtain ⟨pos, le⟩ := range
        exact done_lawful (configPool_lawful h (one_le_toNat pos) le (not_not.1 (not_or.1 empty).1)) _ (by simp)
  · exact refuse_lawful h _

/-! ### Time (R113, R114) -/

theorem execTimeConfig_lawful (h : s.Lawful) (p : Port) : Lawfully (execTimeConfig p s) := by
  refine command_lawful h fun params _ => ?_
  split
  · simp only
    split
    · exact refuse_lawful h _
    · next range =>
      obtain ⟨pos, le⟩ := not_or.1 range
      obtain ⟨-, -, rest⟩ := h.ticks
      refine ⟨h.setTime rfl rfl ?_, ?_⟩
      · exact ⟨Nat.one_le_iff_ne_zero.2 pos, Nat.not_lt.1 le, rest⟩
      · simp [done, halfBytes]
  · exact refuse_lawful h _

theorem execTimeRead_lawful (h : s.Lawful) (p : Port) : Lawfully (execTimeRead p s) := by
  refine command_lawful h fun params _ => ?_
  split
  · exact done_lawful h _ (by simp [tickBytes])
  · exact refuse_lawful h _

/-! ### The ports and the reset inputs (R177 to R183) -/

theorem execPortEnable_lawful (h : s.Lawful) (p : Port) : Lawfully (execPortEnable p s) := by
  refine command_lawful h fun params submitted => ?_
  split
  · split
    · exact refuse_lawful h _
    · have released : (s.port p).prst = false := Bool.not_eq_true _ ▸ fun a => by
        have quiet := ((h.ports p).quietUnderReset a).2.2
        rw [State.Submitted, quiet] at submitted
        cases submitted
      exact done_lawful (enablePort_lawful h released) _
  · exact refuse_lawful h _

theorem State.Lawful.losePort (h : s.Lawful) (p : Port) : (losePortWhole p s).Lawful := losePortWhole_lawful (h.sound.but p) h.rested

theorem execPortDrop_lawful (h : s.Lawful) (p : Port) : Lawfully (execPortDrop p s) := by
  refine take_lawful h fun params _ => ?_
  split
  · split
    · exact (complete_lawful (r := done [] s) h (Nat.zero_le _)).losePort p
    · exact complete_lawful (r := refuse .wrongState s) h (Nat.zero_le _)
  · exact complete_lawful (r := refuse .paramCount s) h (Nat.zero_le _)

theorem execPeerDrop_lawful (h : s.Lawful) (p : Port) : Lawfully (execPeerDrop p s) := by
  refine command_lawful h fun params _ => ?_
  split
  · split
    · exact done_lawful (h.losePort _) _
    · exact refuse_lawful h _
  · exact refuse_lawful h _

theorem execDeviceReset_lawful (h : s.Lawful) (p : Port) : Lawfully (execDeviceReset p s) := by
  refine take_lawful h fun params _ => ?_
  split
  · split
    · exact complete_lawful (r := refuse .peerActive s) h (Nat.zero_le _)
    · exact deviceReset_lawful s
  · exact complete_lawful (r := refuse .paramCount s) h (Nat.zero_le _)

theorem execBadCommand_lawful (h : s.Lawful) (p : Port) : Lawfully (execBadCommand p s) := by
  unfold execBadCommand
  split
  · exact lawfully_next h
  · split
    · exact lawfully_next h
    · exact lawfully_next (complete_lawful (r := refuse .badCommand s) h (Nat.zero_le _))

/-- A line whose next sample is its first (R143). -/
def LineRecord.unsampled (r : LineRecord) : LineRecord := { r with sampled := false, pendingCount := false }

theorem execRstRelease_lawful (h : s.Lawful) : Lawfully (execRstRelease s) := by
  unfold execRstRelease
  have line (l : Line) : { s with lines := s.lines.map LineRecord.unsampled }.line l = (s.line l).unsampled := by simp [State.line]
  split
  · refine lawfully_next (h.adjust ⟨fun _ => rfl, fun _ => rfl, fun p => by cases p <;> rfl, fun _ => rfl, rfl, rfl, fun l => ?_, rfl⟩
      rfl (fun l => ?_) ?_)
    · exact (show LineRecord.waiters _ = (s.line l).unsampled.waiters from congrArg LineRecord.waiters (line l))
    · exact (congrArg LineRecord.Lawful (line l)).mpr (h.lines l)
    · obtain ⟨low, high, periodLow, periodHigh, -, -⟩ := h.ticks
      exact ⟨low, high, periodLow, periodHigh, Nat.zero_lt_succ _, periodLow⟩
  · exact lawfully_next h

/-! ### The window (R161 to R166, R171, R172) -/

theorem access_lawful (h : s.Lawful) {f : State → State} (keeps : (s.port p).prst = false → (f s).Lawful) : Lawfully (access p f s) := by
  unfold access
  split
  · next opened =>
    refine lawfully_next (keeps ?_)
    have := opened
    simp only [State.windowOpen, Bool.and_eq_true, Bool.not_eq_true'] at this
    exact this.1
  · exact lawfully_next h

/-- A write that changes the Port Unit alone. -/
theorem accessUnit_lawful (h : s.Lawful) {f : PortUnit → PortUnit} (bounded : (f (s.port p).unit).Bounded) :
    Lawfully (access p (fun s => s.updUnit p f) s) :=
  access_lawful h fun released => h.updUnit bounded fun a => by rw [released] at a; cases a

theorem PortUnit.Bounded.stage {u : PortUnit} (h : u.Bounded) (value : Byte) : (u.stage value).Bounded := by
  obtain ⟨staging, results, command⟩ := h
  unfold PortUnit.stage
  split
  · next room => exact ⟨by simp; omega, results, command⟩
  · exact ⟨staging, results, command⟩

theorem PortUnit.Bounded.submit {u : PortUnit} (h : u.Bounded) (code : Byte) : (u.submit code).Bounded := by
  obtain ⟨staging, results, command⟩ := h
  unfold PortUnit.submit
  split
  · exact ⟨staging, results, command⟩
  · exact ⟨Nat.zero_le _, Nat.zero_le _, fun c e => by cases e; exact ⟨staging, rfl, rfl⟩⟩

theorem execPrmRead_lawful (h : s.Lawful) (p : Port) : Lawfully (execPrmRead p s) := by
  obtain ⟨staging, results, command⟩ := (h.ports p).bounded
  have quiet := fun a => ((h.ports p).quietUnderReset a).2
  unfold execPrmRead
  split
  · refine lawfully_next (h.updUnit ⟨staging, ?_, fun c e => ?_⟩ quiet)
    · rw [List.length_tail]; exact (Nat.sub_le _ _).trans results
    · obtain ⟨params, res, none_left⟩ := command c e
      exact ⟨params, res, by rw [none_left]; rfl⟩
  · exact lawfully_next (h.updUnit ⟨staging, results, command⟩ quiet)

/-! ### All of them -/

/-- Every row keeps the laws. -/
theorem exec_lawful (h : s.Lawful) (c : Instr) : Lawfully (exec c s) := by
  cases c with
  | taskCreate p => exact execTaskCreate_lawful h p
  | taskStart p => exact execTaskStart_lawful h p
  | taskDelete p => exact execTaskDelete_lawful h p
  | taskExit p => exact execTaskExit_lawful h p
  | taskHold p => exact execTaskHold_lawful h p
  | taskRelease p => exact execTaskRelease_lawful h p
  | taskSetpri p => exact execTaskSetpri_lawful h p
  | taskSetaff p => exact execTaskSetaff_lawful h p
  | taskSetctx p => exact execTaskSetctx_lawful h p
  | taskQuery p => exact execTaskQuery_lawful h p
  | taskSelf p => exact execTaskSelf_lawful h p
  | taskYield p => exact execTaskYield_lawful h p
  | taskDelay p => exact execTaskDelay_lawful h p
  | xchOpen p => exact execXchOpen_lawful h p
  | xchClose p => exact execXchClose_lawful h p
  | xchQuery p => exact execXchQuery_lawful h p
  | msgSend p => exact execMsgSend_lawful h p
  | msgRecv p => exact execMsgRecv_lawful h p
  | cntAcquire p => exact execCntAcquire_lawful h p
  | cntRelease p => exact execCntRelease_lawful h p
  | evtConfig p => exact execEvtConfig_lawful h p
  | evtWait p => exact execEvtWait_lawful h p
  | evtQuery p => exact execEvtQuery_lawful h p
  | pageAlloc p => exact execPageAlloc_lawful h p
  | pageFree p => exact execPageFree_lawful h p
  | pageGive p => exact execPageGive_lawful h p
  | pageQuery p => exact execPageQuery_lawful h p
  | pageReclaim p => exact execPageReclaim_lawful h p
  | pageConfig p => exact execPageConfig_lawful h p
  | timeConfig p => exact execTimeConfig_lawful h p
  | timeRead p => exact execTimeRead_lawful h p
  | portEnable p => exact execPortEnable_lawful h p
  | portDrop p => exact execPortDrop_lawful h p
  | peerDrop p => exact execPeerDrop_lawful h p
  | deviceReset p => exact execDeviceReset_lawful h p
  | badCommand p => exact execBadCommand_lawful h p
  | prmWrite p v => exact accessUnit_lawful h ((h.ports p).bounded.stage v)
  | prmRead p => exact execPrmRead_lawful h p
  | intpWrite p v => exact accessUnit_lawful h (f := fun u => { u with intp := u.intp &&& ~~~(v.setWidth 4) }) (h.ports p).bounded
  | inteWrite p v => exact accessUnit_lawful h (f := fun u => { u with inte := v.setWidth 4 }) (h.ports p).bounded
  | accept p v => exact access_lawful h fun _ => takeAccept_lawful h v
  | writeIgnored p l v => exact lawfully_next h
  | prstAssert p => exact lawfully_next (prstAssert_lawful h p)
  | prstRelease p => exact lawfully_next (prstRelease_lawful h p)
  | rstAssert => exact lawfully_next ((deviceReset_lawful s).setRst true)
  | rstRelease => exact execRstRelease_lawful h
  | lineEvent l e =>
    rw [exec, execLineEvent]
    split
    · exact lawfully_next h
    · exact lawfully_next (recogniseEdge_lawful h l e)
  | tick =>
    rw [exec, execTick]
    split
    · exact lawfully_next h
    · exact lawfully_next (tickWhole_lawful h)
  | expiry t => exact lawfully_next ((expire_of_lawful h t).symm ▸ h)
  | sliceExpiry p =>
    rw [exec, execSliceExpiry]
    split
    · exact lawfully_next (countQuantum_lawful h p)
    · exact lawfully_next h
  | cmdWrite p code => exact accessUnit_lawful h ((h.ports p).bounded.submit code)
  | lineSample levels =>
    rw [exec, execLineSample]
    split
    · exact lawfully_next h
    · exact lawfully_next (sampleLines_lawful h levels)

/-- Settles O29: each operation of the model is a chain of the moves that the lemmas above follow with the laws in hand. -/
theorem everyStepKeepsEveryLaw : Obligations.EveryStepKeepsEveryLaw := by
  intro s u e h
  unfold step at e
  cases pending : s.pending with
  | nil =>
    rw [pending] at e
    exact lawfully_next (clkPeriod_lawful h) u e
  | cons i rest =>
    rw [pending] at e
    exact exec_lawful (h.withPending rest) i u e

end

end Sys2Proof.Machine

/-! ## Which row changes which setting: the settings and the operations (R2 "Set by", R3, R71 to R73, R113, R114, R130, R144) -/

namespace Sys2Proof.Machine

/-- What one command alone sets: fields of a task's record, and settings of the objects. -/
inductive Setting where
  | generation | priority | affinity | context | quantum
  | exchanges | cells | modes | poolSize | storedN | counter
  deriving DecidableEq

/-- Two records of a task agree on a setting. -/
def Setting.OfTask : Setting → TaskRecord → TaskRecord → Prop
  | .generation, r, r' => r'.generation = r.generation
  | .priority, r, r' => r'.priority = r.priority
  | .affinity, r, r' => r'.affinity = r.affinity
  | .context, r, r' => r'.context = r.context
  | .quantum, r, r' => r'.quantum = r.quantum
  | .exchanges, _, _ | .cells, _, _ | .modes, _, _ | .poolSize, _, _ | .storedN, _, _ | .counter, _, _ => True

/-- Two states agree on a setting of the objects. -/
def Setting.OfObjects : Setting → State → State → Prop
  | .exchanges, s, u => ∀ x, (u.exchange x).generation = (s.exchange x).generation
  | .cells, s, u => u.freeCells = s.freeCells
  | .modes, s, u => ∀ l, (u.line l).edgeMode = (s.line l).edgeMode ∧ (u.line l).releaseMode = (s.line l).releaseMode
  | .poolSize, s, u => u.pool.size = s.pool.size
  | .storedN, s, u => u.time.storedN = s.time.storedN
  | .counter, s, u => u.time.counter = s.time.counter
  | .generation, _, _ | .priority, _, _ | .affinity, _, _ | .context, _, _ | .quantum, _, _ => True

/-- All settings are kept but those of the list. -/
structure Keeps (e : List Setting) (s u : State) : Prop where
  tasks : ∀ x ∉ e, ∀ t, x.OfTask (s.task t) (u.task t)
  objects : ∀ x ∉ e, x.OfObjects s u

/-- Every setting but those of the list is kept: a field of a task at least while its slot is not FREE. -/
structure Respects (e : List Setting) (s u : State) : Prop where
  tasks : ∀ x ∉ e, ∀ t, (x = .generation ∨ (s.states t ≠ .free ∧ u.states t ≠ .free)) → x.OfTask (s.task t) (u.task t)
  objects : ∀ x ∉ e, x.OfObjects s u

theorem Setting.OfTask.refl (x : Setting) (r : TaskRecord) : x.OfTask r r := by cases x <;> trivial

theorem Setting.OfTask.trans {x : Setting} {a b c : TaskRecord} (h : x.OfTask a b) (k : x.OfTask b c) : x.OfTask a c := by
  cases x <;> simp_all only [Setting.OfTask]

theorem Setting.OfObjects.refl (x : Setting) (s : State) : x.OfObjects s s := by
  cases x <;> simp [Setting.OfObjects]

theorem Setting.OfObjects.trans {x : Setting} {a b c : State} (h : x.OfObjects a b) (k : x.OfObjects b c) : x.OfObjects a c := by
  cases x with
  | exchanges => exact fun y => (k y).trans (h y)
  | modes => exact fun l => ⟨(k l).1.trans (h l).1, (k l).2.trans (h l).2⟩
  | cells => exact Eq.trans k h
  | poolSize => exact Eq.trans k h
  | storedN => exact Eq.trans k h
  | counter => exact Eq.trans k h
  | _ => trivial

section
variable {e : List Setting} {s u a b c : State}

theorem Keeps.refl (e : List Setting) (s : State) : Keeps e s s := ⟨fun x _ _ => .refl x _, fun x _ => .refl x s⟩

theorem Keeps.trans (h : Keeps e a b) (k : Keeps e b c) : Keeps e a c :=
  ⟨fun x hx t => (h.tasks x hx t).trans (k.tasks x hx t), fun x hx => (h.objects x hx).trans (k.objects x hx)⟩

theorem Keeps.respects (h : Keeps e s u) : Respects e s u := ⟨fun x hx t _ => h.tasks x hx t, h.objects⟩

/-! ### The frames keep every setting -/

theorem TasksKept.ofTask (h : TasksKept s u) (x : Setting) (t : Slot) : x.OfTask (s.task t) (u.task t) := by
  rw [h t]
  cases x <;> trivial

theorem ObjectFrame.ofObjects (h : ObjectFrame s u) (x : Setting) : x.OfObjects s u := by
  cases x with
  | exchanges => exact h.generation
  | cells => exact h.freeCells
  | modes => exact fun l => by rw [h.line l]; exact ⟨rfl, rfl⟩
  | poolSize => exact h.size
  | storedN => exact (by rw [h.time] : u.time.storedN = s.time.storedN)
  | counter => exact (by rw [h.time] : u.time.counter = s.time.counter)
  | _ => trivial

theorem Keeps.of_frames (o : ObjectFrame s u) (t : TasksKept s u) : Keeps e s u := ⟨fun x _ => t.ofTask x, fun x _ => o.ofObjects x⟩

theorem WaitFrame.keeps (h : WaitFrame s u) : Keeps e s u := .of_frames h.objects h.tasks

theorem DispatchFrame.keeps (h : DispatchFrame s u) : Keeps e s u := h.toWait.keeps

theorem ListsOnly.keeps (h : ListsOnly s u) : Keeps e s u where
  tasks x _ t := by rw [h.task]; exact .refl x _
  objects x _ := by
    cases x with
    | exchanges => exact h.generation
    | cells => exact h.freeCells
    | modes => exact fun l => by rw [h.line l]; exact ⟨rfl, rfl⟩
    | poolSize => exact (by rw [h.pool] : u.pool.size = s.pool.size)
    | storedN => exact (by rw [h.time] : u.time.storedN = s.time.storedN)
    | counter => exact (by rw [h.time] : u.time.counter = s.time.counter)
    | _ => trivial

/-! ### The updates -/

/-- A change of a task's record that keeps the settings. -/
theorem Keeps.updTask (s : State) (t : Slot) {f : TaskRecord → TaskRecord} (h : ∀ x ∉ e, x.OfTask (s.task t) (f (s.task t))) :
    Keeps e s (s.updTask t f) where
  tasks x hx v := by
    rw [State.updTask_task]
    split
    · next k => subst k; exact h x hx
    · exact .refl x _
  objects x _ := by cases x <;> simp [Setting.OfObjects]

theorem Keeps.updPort (e : List Setting) (s : State) (p : Port) (f : PortRecord → PortRecord) : Keeps e s (s.updPort p f) where
  tasks x _ t := by rw [State.updPort_task]; exact .refl x _
  objects x _ := by
    cases x <;> simp [Setting.OfObjects]

theorem Keeps.setDisposition (e : List Setting) (s : State) (p : Port) (d : Disposition) : Keeps e s (s.setDisposition p d) :=
  Keeps.updPort e s p fun r => { r with occ := { r.occ with disposition := some d } }

/-- A change of the objects that keeps the settings. -/
theorem Keeps.of_objects (tasks : u.tasks = s.tasks) (objects : ∀ x ∉ e, x.OfObjects s u) : Keeps e s u :=
  ⟨fun x _ t => by simp only [State.task, tasks]; exact .refl x _, objects⟩

theorem Keeps.updMailbox (e : List Setting) (s : State) (x : Fin 16) (f : Mailbox → Mailbox) : Keeps e s (s.updMailbox x f) where
  tasks y _ t := by rw [State.updMailbox_task]; exact .refl y _
  objects y _ := by
    have generation (z : Fin 16) : ((s.updMailbox x f).exchange z).generation = (s.exchange z).generation := by
      rw [updMailbox_exchange]
      split
      · next k => rw [k]
      · rfl
    cases y with
    | exchanges => exact generation
    | _ => simp [Setting.OfObjects]

theorem Keeps.updCounter (e : List Setting) (s : State) (x : Fin 16) (f : Counter → Counter) : Keeps e s (s.updCounter x f) where
  tasks y _ t := by rw [State.updCounter_task]; exact .refl y _
  objects y _ := by
    have generation (z : Fin 16) : ((s.updCounter x f).exchange z).generation = (s.exchange z).generation := by
      rw [updCounter_exchange]
      split
      · next k => rw [k]
      · rfl
    cases y with
    | exchanges => exact generation
    | _ => simp [Setting.OfObjects]

theorem Keeps.updLine (s : State) (l : Line) {f : LineRecord → LineRecord}
    (h : .modes ∉ e → (f (s.line l)).edgeMode = (s.line l).edgeMode ∧ (f (s.line l)).releaseMode = (s.line l).releaseMode) :
    Keeps e s (s.updLine l f) := by
  refine .of_objects rfl fun x hx => ?_
  cases x with
  | modes =>
    intro m
    rw [State.updLine_line]
    split
    · next k => subst k; exact h hx
    · exact ⟨rfl, rfl⟩
  | _ => simp [Setting.OfObjects]

theorem Keeps.updPool (s : State) {f : PagePool → PagePool} (h : .poolSize ∉ e → (f s.pool).size = s.pool.size) :
    Keeps e s (s.updPool f) := by
  refine .of_objects rfl fun x hx => ?_
  cases x with
  | poolSize => exact h hx
  | _ => simp [Setting.OfObjects]

/-- The RST level, the free values, the order of the timer list and the dividers are no settings. -/
theorem Keeps.setTime (s : State) {v : TickUnit} (storedN : .storedN ∉ e → v.storedN = s.time.storedN)
    (counter : .counter ∉ e → v.counter = s.time.counter) : Keeps e s { s with time := v } := by
  refine .of_objects rfl fun x hx => ?_
  cases x with
  | storedN => exact storedN hx
  | counter => exact counter hx
  | modes => exact fun _ => ⟨rfl, rfl⟩
  | _ => simp [Setting.OfObjects, State.exchange]

end

end Sys2Proof.Machine

/-! ## Which row changes which setting: the operations of the commands -/

namespace Sys2Proof.Machine

section
variable {e : List Setting} {s u : State} {p : Port} {x t : Slot}

/-! ### Tasks (R12 to R21, R40, R61) -/

/-- A change of what a record holds beside the settings: the state, the hold, the wait, the delivery, the remaining quantum. -/
theorem Keeps.updState (e : List Setting) (s : State) (t : Slot) {f : TaskRecord → TaskRecord}
    (h : f (s.task t) =
      { s.task t with
        state := (f (s.task t)).state
        remaining := (f (s.task t)).remaining
        holdFlag := (f (s.task t)).holdFlag
        holdCause := (f (s.task t)).holdCause
        wait := (f (s.task t)).wait
        delivery := (f (s.task t)).delivery
        doomed := (f (s.task t)).doomed }) : Keeps e s (s.updTask t f) :=
  .updTask s t fun x _ => by rw [h]; cases x <;> trivial

theorem Keeps.redecide (e : List Setting) (p : Port) (gone : Bool) (s : State) : Keeps e s (redecide p gone s) :=
  (redecide_frame p gone s).keeps

theorem becomeHeld_keeps (t : Slot) (s : State) : Keeps e s (becomeHeld t s) := .updState e s t rfl

theorem setHoldFlag_keeps (t : Slot) (s : State) : Keeps e s (setHoldFlag t s) := .updState e s t rfl

theorem clearHoldFlag_keeps (t : Slot) (s : State) : Keeps e s (clearHoldFlag t s) := .updState e s t rfl

theorem holdOccupant_keeps (p : Port) (t : Slot) (s : State) : Keeps e s (holdOccupant p t s) :=
  ((Keeps.updState e s t rfl).trans (.setDisposition _ _ _ _)).trans (.redecide _ _ _ _)

theorem holdTask_keeps (t : Slot) (s : State) : Keeps e s (holdTask t s).state := by
  unfold holdTask
  split
  case h_4 => exact (unqueue_frame t s).keeps.trans (becomeHeld_keeps _ _)
  case h_5 =>
    split
    · exact (becomeHeld_keeps t s).trans (.redecide _ _ _ _)
    · exact becomeHeld_keeps t s
  case h_6 =>
    split
    · exact .refl e s
    · exact setHoldFlag_keeps t s
  case h_7 =>
    split
    · exact .refl e s
    · split
      case h_5 =>
        split
        · exact .refl e s
        · exact setHoldFlag_keeps t s
      case h_6 | h_7 => exact .refl e s
      all_goals exact holdOccupant_keeps _ t s
  all_goals exact .refl e s

theorem releaseTask_keeps (t : Slot) (s : State) : Keeps e s (releaseTask t s).state := by
  unfold releaseTask
  split
  case h_5 => exact (Keeps.updState e s t rfl).trans (readyTail_frame _ _).keeps
  case h_6 =>
    split
    · exact clearHoldFlag_keeps t s
    · exact .refl e s
  case h_7 =>
    split
    · exact .refl e s
    · split
      case h_1 => exact ((Keeps.updState e s t rfl).trans (.setDisposition _ _ _ _)).trans (.redecide _ _ _ _)
      case h_2 =>
        split
        · exact clearHoldFlag_keeps t s
        · exact .refl e s
      all_goals exact .refl e s
  all_goals exact .refl e s

theorem setAffinity_keeps (t : Slot) (a : Affinity) (s : State) : Keeps [.affinity] s (setAffinity t a s).state := by
  have written : Keeps [.affinity] s (s.updTask t fun r => { r with affinity := a }) :=
    .updTask s t fun x hx => by cases x <;> trivial
  unfold setAffinity
  simp only
  split
  case h_1 | h_2 => exact .refl _ s
  case h_3 =>
    split
    · exact written
    · exact written.trans (place_frame _ _).keeps
  all_goals exact written

theorem offerTask_keeps (p : Port) (t : Slot) (s : State) : Keeps e s (offerTask p t s) := by
  unfold offerTask writeOffer State.raise State.updOcc
  exact (((unqueue_frame t s).keeps.trans (.updState e _ t rfl)).trans (.updPort _ _ _ _)).trans (.updPort _ _ _ _)

theorem yieldPort_keeps (p : Port) (x : Slot) (s : State) : Keeps e s (yieldPort p x s) := by
  unfold yieldPort
  split
  · exact .refl e s
  · split
    case h_3 => exact (Keeps.setDisposition _ _ _ _).trans (.redecide _ _ _ _)
    case h_1 | h_2 => exact (Keeps.setDisposition _ _ _ _).trans (offerTask_keeps _ _ _)
    all_goals exact .refl e s

theorem sliceExpired_keeps (p : Port) (x : Slot) (s : State) : Keeps e s (sliceExpired p x s) := by
  unfold sliceExpired
  split
  · exact (Keeps.setDisposition _ _ _ _).trans (offerTask_keeps _ _ _)
  · exact .updState e s x rfl

theorem countQuantum_keeps (p : Port) (s : State) : Keeps e s (countQuantum p s) := by
  unfold countQuantum
  split
  · split
    · exact .refl e s
    · next x _ =>
      have counted := Keeps.updState e s x (f := fun r => { r with remaining := r.remaining - 1 }) rfl
      simp only
      split
      · exact counted.trans (sliceExpired_keeps _ _ _)
      · exact counted
  · exact .refl e s

theorem repositionWaiter_keeps (t : Slot) (s : State) : Keeps e s (repositionWaiter t s) := by
  unfold repositionWaiter
  split
  · exact .refl e s
  · split
    case h_1 | h_2 =>
      split
      · exact .refl e s
      · split
        · exact .updMailbox e s _ _
        · exact .refl e s
    case h_3 =>
      split
      · exact .refl e s
      · split
        · exact .updCounter e s _ _
        · exact .refl e s
    all_goals exact .refl e s

theorem setpriOccupant_keeps (p : Port) (t : Slot) (less : Bool) (s : State) : Keeps e s (setpriOccupant p t less s) := by
  unfold setpriOccupant
  split
  case h_1 =>
    split
    · exact .redecide _ _ _ _
    · exact .refl e s
  case h_2 | h_3 => exact (Keeps.setDisposition _ _ _ _).trans (.redecide _ _ _ _)
  case h_4 => exact .redecide _ _ _ _
  case h_5 => exact repositionWaiter_keeps t s
  all_goals exact .refl e s

theorem setPriority_keeps (t : Slot) (priority : Fin 32) (s : State) : Keeps [.priority] s (setPriority t priority s) := by
  have write (s : State) : Keeps [.priority] s (s.updTask t fun r => { r with priority := priority }) :=
    .updTask s t fun x hx => by cases x <;> trivial
  unfold setPriority
  simp only
  split
  · exact .refl _ s
  · split
    case h_4 => exact ((unqueue_frame t s).keeps.trans (write _)).trans (readyTail_frame _ _).keeps
    case h_5 =>
      split
      · split
        · exact (write s).trans (.redecide _ _ _ _)
        · exact write s
      · exact write s
    case h_6 => exact (write s).trans (repositionWaiter_keeps _ _)
    case h_7 =>
      split
      · exact (write s).trans (setpriOccupant_keeps _ _ _ _)
      · exact write s
    all_goals exact write s

theorem nextGeneration_keeps (t : Slot) (s : State) : Keeps [.generation] s (nextGeneration t s) :=
  .updTask s t fun x hx => by cases x <;> trivial

theorem serve_keeps (s : State) : Keeps e s (serve s) := .of_frames (serve_frame s).1 (serve_frame s).2

theorem doom_keeps (p : Port) (t : Slot) (s : State) : Keeps [.generation] s (doom p t s) := by
  have marked (s : State) : Keeps [.generation] s ((s.updTask t TaskRecord.doom).setDisposition p .free) :=
    (Keeps.updTask s t fun x hx => by cases x <;> trivial).trans
      (.setDisposition _ _ _ _)
  rw [doom_eq]
  split
  · split
    · exact ((cancelWait_frame t s).keeps.trans (marked _)).trans (serve_keeps _)
    · exact (cancelWait_frame t s).keeps.trans (marked _)
  · exact marked s

/-! ### Waits (R51) -/

theorem insertTimer_keeps (t : Slot) (d : Option TickCount) (s : State) : Keeps e s (insertTimer t d s) := by
  cases d with
  | none => exact .refl e s
  | some d => exact .setTime s (fun _ => rfl) fun _ => rfl

theorem beginWait_keeps (p : Port) (x : Slot) (k : WaitKind) (d : Option TickCount) (s : State) : Keeps e s (beginWait p x k d s) :=
  ((((Keeps.updState e s x rfl).trans (joinList_listsOnly x k _).keeps).trans (insertTimer_keeps _ _ _)).trans
    (.setDisposition _ _ _ _)).trans (.redecide _ _ _ _)

theorem waitOr_keeps (r : Result) (p : Port) (caller : Option Slot) (k : WaitKind) (d : Option TickCount) (s : State) :
    Keeps e s (waitOr r p caller k d s).state := by
  cases caller with
  | none => exact .refl e s
  | some x => exact beginWait_keeps p x k d s

/-! ### Exchanges (R74 to R108) -/

theorem handMessage_keeps (y : Fin 16) (t : Slot) (m : Message) (s : State) : Keeps e s (handMessage y t m s) :=
  (Keeps.updMailbox _ _ _ _).trans (endWait_frame _ _ _).keeps

theorem queueMessage_keeps (y : Fin 16) (m : Message) (s : State) : Keeps e s (queueMessage y m s) := .updMailbox _ _ _ _

theorem deliverOrQueue_keeps (y : Fin 16) (m : Message) (s : State) : Keeps e s (deliverOrQueue y m s) := by
  unfold deliverOrQueue
  split
  · exact handMessage_keeps _ _ _ _
  · exact queueMessage_keeps _ _ _

theorem refillRounds_keeps (y : Fin 16) (n : Nat) : ∀ s : State, Keeps e s (refillRounds n y s) := by
  induction n with
  | zero => exact fun s => .refl e s
  | succ n ih =>
    intro s
    unfold refillRounds
    split
    · exact .refl e s
    · split
      · split
        · exact .refl e s
        · next t rest _ =>
          have left : Keeps e s (endWait t (.ok .none) (s.updMailbox y fun b => { b with senders := rest })) :=
            (Keeps.updMailbox _ _ _ _).trans (endWait_frame _ _ _).keeps
          refine Keeps.trans ?_ (ih _)
          split
          · exact left.trans (deliverOrQueue_keeps _ _ _)
          · exact left
      · exact .refl e s

theorem sendMessage_keeps (p : Port) (caller : Option Slot) (d : Option TickCount) (id : Byte) (y : Fin 16) (m : Message)
    (s : State) : Keeps e s (sendMessage p caller d id y m s).state := by
  unfold sendMessage
  split
  · exact .refl e s
  · split
    · exact handMessage_keeps _ _ _ _
    · split
      · exact queueMessage_keeps _ _ _
      · exact waitOr_keeps _ _ _ _ _ _

theorem receiveMessage_keeps (p : Port) (caller : Option Slot) (d : Option TickCount) (id low high : Byte) (y : Fin 16)
    (s : State) : Keeps e s (receiveMessage p caller d id low high y s).state := by
  unfold receiveMessage
  split
  · exact .refl e s
  · split
    · exact (Keeps.updMailbox _ _ _ _).trans (refillRounds_keeps _ _ _)
    · exact waitOr_keeps _ _ _ _ _ _

theorem acquireUnit_keeps (p : Port) (caller : Option Slot) (d : Option TickCount) (id : Byte) (y : Fin 16) (s : State) :
    Keeps e s (acquireUnit p caller d id y s).state := by
  unfold acquireUnit
  split
  · exact .refl e s
  · exact .refl e s
  · split
    · exact .updCounter _ _ _ _
    · exact waitOr_keeps _ _ _ _ _ _

theorem releaseUnit_keeps (y : Fin 16) (s : State) : Keeps e s (releaseUnit y s).state := by
  unfold releaseUnit
  split
  · exact .refl e s
  · exact .refl e s
  · split
    · exact (Keeps.updCounter _ _ _ _).trans (endWait_frame _ _ _).keeps
    · split
      · exact .updCounter _ _ _ _
      · exact .refl e s

/-- Opening an exchange takes cells alone (R73). -/
theorem openExchange_keeps (state : ExchangeState) (cells : Nat) (s : State) :
    Keeps [.cells] s (openExchange state cells s).state := by
  unfold openExchange
  split
  · exact .refl _ s
  · next y _ =>
    split
    · exact .refl _ s
    · refine .of_objects rfl fun x hx => ?_
      cases x with
      | cells => exact absurd List.mem_cons_self hx
      | exchanges =>
        intro z
        show ((s.setExchange y state).exchange z).generation = _
        rw [State.setExchange_exchange]
        split
        · next k => rw [k]
        · rfl
      | _ => simp [Setting.OfObjects, State.line]

theorem closeExchange_keeps (y : Fin 16) (s : State) : Keeps [.exchanges, .cells] s (closeExchange y s).state := by
  refine (endWaits_frame (s.exchange y).state.waiters .closed s).keeps.trans (.of_objects rfl fun x hx => ?_)
  cases x with
  | cells => simp at hx
  | exchanges => simp at hx
  | _ => simp [Setting.OfObjects, State.line, closeExchange, done]

/-! ### Lines (R131 to R139) -/

theorem takeLineEvent_keeps (l : Line) (s : State) : Keeps e s (takeLineEvent l s) := by
  unfold takeLineEvent
  simp only
  split
  · refine .updLine s l fun _ => ?_
    unfold LineRecord.latchEvent
    split <;> exact ⟨rfl, rfl⟩
  · split
    · exact (Keeps.updLine s l fun _ => ⟨rfl, rfl⟩).trans (endWait_frame _ _ _).keeps
    · exact (Keeps.updLine s l fun _ => ⟨rfl, rfl⟩).trans (endWaits_frame _ _ _).keeps

theorem recogniseEdge_keeps (l : Line) (edge : Edge) (s : State) : Keeps e s (recogniseEdge l edge s) := by
  have recognised : Keeps e s (s.updLine l fun r => { r with sampled := true, settled := edgeLevel edge, pendingCount := false }) :=
    .updLine s l fun _ => ⟨rfl, rfl⟩
  unfold recogniseEdge
  simp only
  split
  · exact recognised.trans (takeLineEvent_keeps _ _)
  · exact recognised

theorem recogniseEdges_keeps (es : List (Line × Edge)) : ∀ s : State, Keeps e s (es.foldl (fun s f => recogniseEdge f.1 f.2 s) s) := by
  induction es with
  | nil => exact fun s => .refl e s
  | cons f es ih => exact fun s => (recogniseEdge_keeps f.1 f.2 s).trans (ih _)

/-- New line records with the modes of the old. -/
theorem Keeps.setLines (s : State) {v : Vector LineRecord 8}
    (h : ∀ l : Line, v[l].edgeMode = (s.line l).edgeMode ∧ v[l].releaseMode = (s.line l).releaseMode) :
    Keeps e s { s with lines := v } := by
  refine .of_objects rfl fun x _ => ?_
  cases x with
  | modes => exact h
  | _ => simp [Setting.OfObjects, State.exchange]

theorem LineRecord.sample_modes (r : LineRecord) (level : Bool) :
    (r.sample level).edgeMode = r.edgeMode ∧ (r.sample level).releaseMode = r.releaseMode := by
  unfold LineRecord.sample
  split <;> exact ⟨rfl, rfl⟩

theorem sampleQuietLines_keeps (levels : Byte) (s : State) : Keeps e s (sampleQuietLines levels s) := by
  refine .setLines s fun l => ?_
  simp only [Fin.getElem_fin, Vector.getElem_ofFn]
  split
  · exact ⟨rfl, rfl⟩
  · exact LineRecord.sample_modes _ _

/-- A free value that is drawn is no setting. -/
theorem Keeps.draw (s : State) (n : Nat) : Keeps e s { s with draws := n } :=
  .of_objects rfl fun x _ => by cases x <;> simp [Setting.OfObjects, State.exchange, State.line]

theorem sampleLines_keeps (levels : Byte) (s : State) : Keeps e s (sampleLines levels s) := by
  have quiet := sampleQuietLines_keeps (e := e) levels s
  unfold sampleLines
  simp only
  split
  · exact quiet
  · exact quiet.trans (recogniseEdge_keeps _ _ _)
  · exact (quiet.trans (.draw _ _)).trans (recogniseEdges_keeps _ _)

/-! ### Time (R118 to R124) -/

theorem expire_keeps (t : Slot) (s : State) : Keeps e s (expire t s) := by
  unfold expire
  split
  · simp only
    split
    · exact (endWait_frame _ _ _).keeps.trans (serve_keeps _)
    · exact (endWait_frame _ _ _).keeps
  · exact .refl e s

theorem expireAll_keeps (due : List Slot) : ∀ s : State, Keeps e s (due.foldl (fun s t => expire t s) s) := by
  induction due with
  | nil => exact fun s => .refl e s
  | cons t due ih => exact fun s => (expire_keeps t s).trans (ih _)

theorem countQuanta_keeps (s : State) : Keeps e s (countQuanta s) := by
  unfold countQuanta
  simp only
  split
  · split
    · exact ((Keeps.draw s _).trans (countQuantum_keeps .B _)).trans (countQuantum_keeps .A _)
    · exact ((Keeps.draw s _).trans (countQuantum_keeps .A _)).trans (countQuantum_keeps .B _)
  · exact (countQuantum_keeps .A _).trans (countQuantum_keeps .B _)

theorem tickWhole_keeps (s : State) : Keeps [.counter] s (tickWhole s) :=
  ((Keeps.setTime s (fun _ => rfl) fun no => absurd List.mem_cons_self no : Keeps [.counter] s (startPeriod s)).trans
    (expireAll_keeps _ _)).trans (countQuanta_keeps _)

/-! ### Pages (R146 to R157) -/

theorem allocate_keeps (p : Port) (x : Slot) (n : Nat) (option : Byte) (d : Option TickCount) (s : State) :
    Keeps e s (allocate p x n option d s).state := by
  unfold allocate
  split
  · exact .updPool s fun _ => PagePool.createRun_size ..
  · split
    · exact .refl e s
    · exact beginWait_keeps _ _ _ _ _

theorem removeAndServe_keeps (f : Fin 64) (s : State) : Keeps e s (removeAndServe f s).1 :=
  (Keeps.updPool s fun _ => PagePool.removeRun_size _ _).trans (serve_keeps _)

/-! ### Ports (R65, R178, R180) -/

theorem complete_keeps (p : Port) (r : Reply) : Keeps e r.state (complete p r) :=
  (Keeps.updPort e r.state p _).trans (.updPort _ _ _ _)

theorem enablePort_keeps (p : Port) (s : State) : Keeps e s (enablePort p s) :=
  ((Keeps.updPort e s p _).trans (.redecide _ _ _ _)).trans (.updPort _ _ _ _)

theorem shutPort_keeps (p : Port) (s : State) : Keeps e s (shutPort p s) := .updPort _ _ _ _

theorem loseOccupant_keeps (x : Slot) (d : Option Disposition) (s : State) : Keeps e s (loseOccupant x d s) := by
  by_cases h : d = some .wait
  · rw [h, loseOccupant_wait]
    exact (cancelWait_frame x s).keeps.trans (.updState _ _ _ rfl)
  · rw [loseOccupant_other x s h]
    exact .updState _ _ _ rfl

theorem endLoss_keeps (q : Port) (on : Bool) (offer : Option Offer) (must : Bool) (s : State) : Keeps e s (endLoss q on offer must s) := by
  have raised : Keeps e s (if on then s.raise q .peerDown else s) := by
    split
    · exact .updPort _ _ _ _
    · exact .refl e s
  unfold endLoss
  simp only
  have displaced (s' : State) (h : Keeps e s s') : Keeps e s (if must then serve s' else s') := by
    split
    · exact h.trans (serve_keeps _)
    · exact h
  refine displaced _ ?_
  split
  · split
    · exact raised.trans (displace_frame _ _).keeps
    · exact raised
  · exact raised

theorem accepted_keeps (p : Port) (y : Option Slot) (s : State) : Keeps e s (s.accepted p y) := by
  have occupied : Keeps e s (s.occupied p y) := by
    cases y with
    | none => exact .updPort e s p fun r => { r with occ := { r.occ with occupant := none } }
    | some t =>
      exact (Keeps.updPort e s p fun r => { r with occ := { r.occ with occupant := some t } }).trans
        (.updState e _ t (f := TaskRecord.resume) rfl)
  exact occupied.trans (.updPort e _ p fun r =>
    PortRecord.clear .offer { r with occ := { r.occ with offer := none, disposition := none, acceptStatus := .accepted } })

end

end Sys2Proof.Machine

/-! ## A slot that becomes FREE stays FREE

Freeing a slot ends an operation but for the serving and, at a port loss, the placement of the removed incoming. With the
Dispatcher's records in agreement neither moves a FREE task. -/

namespace Sys2Proof.Machine

section
variable {e : List Setting} {s s' u : State} {p : Port} {x t : Slot}

/-! ### The Dispatcher's records in agreement -/

/-- The law reads the queues, the ports' occupancies and lifecycles, and of each task its state and priority. -/
theorem State.DispatcherLaw.congr (h : s.DispatcherLaw) (queue : ∀ l, s'.queue l = s.queue l) (port : ∀ p, s'.port p = s.port p)
    (states : s'.states = s.states) (priority : ∀ t, (s'.task t).priority = (s.task t).priority) : s'.DispatcherLaw := by
  refine State.dispatcherLaw_iff.2 ⟨?_, fun p => by rw [port]; exact h.fits p⟩
  rw [states]
  exact h.arranged.reprioritised queue (fun t _ => priority t) (fun p => by rw [port]) fun p => by rw [port]

theorem State.DispatcherLaw.updPort {f : PortRecord → PortRecord} (same : (s.port p).SameOccupancy (f (s.port p)))
    (h : s.DispatcherLaw) : (s.updPort p f).DispatcherLaw := by
  have states : (s.updPort p f).states = s.states := by funext t; simp [State.states]
  refine State.dispatcherLaw_iff.2 ⟨?_, fun q => (h.fits q).updPort same⟩
  rw [states]
  exact h.arranged.updPort same

/-- A task that the Dispatcher has nowhere may as well be left out of account. -/
theorem State.DispatcherLaw.but (h : s.DispatcherLaw) (outside : (s.states t).Away) : s.DispatcherBut t := by
  refine ⟨h.arranged.places fun v => ?_, h.fits⟩
  by_cases k : v = t
  · rw [k, moveTo_self]; exact .inr ⟨outside, away_held⟩
  · rw [moveTo_ne _ _ k]; exact .inl rfl

theorem State.DispatcherBut.law (h : s.DispatcherBut t) (outside : (s.states t).Away) : s.DispatcherLaw := by
  refine State.dispatcherLaw_iff.2 ⟨h.arranged.places fun v => ?_, h.fits⟩
  by_cases k : v = t
  · rw [k, moveTo_self]; exact .inr ⟨away_held, outside⟩
  · rw [moveTo_ne _ _ k]; exact .inl rfl

/-- The record of a task that the Dispatcher has nowhere may change. -/
theorem State.DispatcherBut.updTask (h : s.DispatcherBut t) (f : TaskRecord → TaskRecord) : (s.updTask t f).DispatcherBut t := by
  have same : moveTo (s.updTask t f).states t .held = moveTo s.states t .held := by
    rw [State.updTask_states, moveTo_moveTo]
  refine ⟨?_, fun p => by rw [State.updTask_port]; exact h.fits p⟩
  rw [same]
  refine h.arranged.reprioritised (fun l => by simp) (fun v ready => ?_) (fun p => by simp) fun p => by simp
  have ne : v ≠ t := by rintro rfl; rw [moveTo_self] at ready; cases ready
  rw [State.updTask_task_ne _ _ ne.symm]

theorem State.DispatcherLaw.updTask (h : s.DispatcherLaw) {f : TaskRecord → TaskRecord} (state : (f (s.task t)).state = (s.task t).state)
    (priority : (f (s.task t)).priority = (s.task t).priority) : (s.updTask t f).DispatcherLaw := by
  refine h.congr (fun l => by simp) (fun p => by simp) (State.updTask_states_eq state) fun v => ?_
  rw [State.updTask_task]
  split
  · next k => subst k; exact priority
  · rfl

theorem freeSlot_states (t : Slot) (s : State) : (freeSlot t s).states = moveTo s.states t .free := by
  funext v
  rw [State.states, freeSlot_task, moveTo]
  by_cases k : v = t
  · rw [if_pos k.symm, if_pos k]; rfl
  · rw [if_neg (Ne.symm k), if_neg k]; rfl

/-- The record of a task outside the Dispatcher is no matter to it. -/
theorem State.Arranged.freeSlot {place : Slot → TaskState} (h : s.Arranged place) (outside : (place t).Away) :
    (freeSlot t s).Arranged (moveTo place t .free) := by
  have same : SamePlaces place (moveTo place t .free) := fun v => by
    by_cases k : v = t
    · rw [k, moveTo_self]; exact .inr ⟨outside, by simp [TaskState.Away]⟩
    · rw [moveTo_ne _ _ k]; exact .inl rfl
  refine (h.places same).reprioritised (fun l => by simp [Machine.freeSlot]) (fun v ready => ?_) (fun p => by simp [Machine.freeSlot])
    fun p => by simp [Machine.freeSlot]
  have ne : v ≠ t := by rintro rfl; rw [moveTo_self] at ready; cases ready
  rw [freeSlot_task_ne _ ne]

theorem State.DispatcherBut.freeSlot (h : s.DispatcherBut t) : (freeSlot t s).DispatcherLaw := by
  have arranged := h.arranged.freeSlot (t := t) (by rw [moveTo_self]; exact away_held)
  rw [moveTo_moveTo, ← freeSlot_states] at arranged
  exact State.dispatcherLaw_iff.2 ⟨arranged, fun p => by simpa [Machine.freeSlot] using h.fits p⟩

/-! ### What keeps the records in agreement and FREE tasks FREE -/

/-- The Dispatcher's records stay in agreement, and FREE tasks stay FREE. -/
structure StaysFree (s s' : State) : Prop where
  law : s'.DispatcherLaw
  free : ∀ t, s.states t = .free → s'.states t = .free

theorem StaysFree.trans {a b c : State} (h : StaysFree a b) (k : StaysFree b c) : StaysFree a c :=
  ⟨k.law, fun t e => k.free t (h.free t e)⟩

theorem StaysFree.refl (h : s.DispatcherLaw) : StaysFree s s := ⟨h, fun _ => id⟩

theorem StaysFree.of_same (law : s'.DispatcherLaw) (states : s'.states = s.states) : StaysFree s s' :=
  ⟨law, fun t => by rw [states]; exact id⟩

theorem Dispatches.stays {v : Slot → Prop} (w : Dispatches v s s') (law : s'.DispatcherLaw) (out : ∀ t, v t → s.states t ≠ .free) :
    StaysFree s s' := by
  refine ⟨law, fun t free => ?_⟩
  rcases w.moved t with same | ⟨enters | ready | selected, -⟩
  · exact same.trans free
  · exact absurd free (out t enters)
  · rw [ready] at free; cases free
  · rw [selected] at free; cases free

theorem readyTail_stays (h : s.DispatcherBut t) (live : s.states t ≠ .free) : StaysFree s (readyTail t s) :=
  (readyTail_dispatches h).stays (readyTail_dispatcher h) fun _ e => e ▸ live

theorem readyHead_stays (h : s.DispatcherBut t) (live : s.states t ≠ .free) : StaysFree s (readyHead t s) :=
  (readyHead_dispatches h).stays (readyHead_dispatcher h) fun _ e => e ▸ live

/-- An occupant takes the disposition HELD or READY_TAIL for WAIT, and its port is re-decided. -/
theorem redispose_stays (h : s.DispatcherLaw) (departs : (s.port p).occ.disposition = some .wait)
    {d : Disposition} (ne : d ≠ .stay) : StaysFree s (redecide p false (s.setDisposition p d)) := by
  obtain ⟨⟨f, hf, switch⟩, occupied⟩ := (h.fits p).switch departs (by simp)
  have here : (s.setDisposition p d).port p = { s.port p with occ := { (s.port p).occ with disposition := some d } } := by
    rw [State.setDisposition_port, if_pos rfl]
  have redeciding : (s.setDisposition p d).Redeciding p false (s.setDisposition p d).states := by
    refine ⟨?_, fun _ => .inl rfl, fun q ne => setDisposition_fits_ne ne (h.fits q), ?_, ?_, ?_⟩
    · rw [setDisposition_states]
      exact h.arranged.setDisposition p d
    · rw [here]
      intro disabled
      have none_there := ((h.fits p).quiet disabled).1
      exact absurd none_there occupied
    · rw [here]; exact (h.fits p).continues
    · rw [here]; exact PortRecord.redecidable_switch hf switch occupied ne
  obtain ⟨law, work, -⟩ := redecide_dispatcher redeciding
  have stays := work.stays law fun _ => False.elim
  exact ⟨stays.law, fun t free => stays.free t (by rw [setDisposition_states]; exact free)⟩

theorem settleWaiter_stays (h : s.DispatcherLaw) (t : Slot) : StaysFree s (settleWaiter t s) := by
  unfold settleWaiter
  simp only
  split
  · next waiting =>
    have waiting : s.states t = .waiting := waiting
    have but := h.but (t := t) (by rw [waiting]; simp [TaskState.Away])
    split
    · have held : (becomeHeld t s).states = moveTo s.states t .held := State.updTask_states ..
      refine ⟨(but.updTask _).law (by rw [State.updTask_states, moveTo_self]; exact away_held), fun v free => ?_⟩
      rw [held, moveTo_ne]
      · exact free
      · rintro rfl
        rw [waiting] at free; cases free
    · exact readyTail_stays but (by rw [waiting]; simp)
  · split
    · exact .refl h
    · next p _ =>
      split
      · next departs =>
        split
        · have noted := h.updTask (t := t) (f := fun r => { r with holdFlag := false, holdCause := some .command }) rfl rfl
          exact (StaysFree.of_same noted (State.updTask_states_eq rfl)).trans
            (redispose_stays noted (by simpa using departs) (by simp))
        · exact redispose_stays h departs (by simp)
      · exact .refl h
  all_goals exact .refl h

theorem endWait_stays (h : s.DispatcherLaw) (t : Slot) (d : Delivery) : StaysFree s (endWait t d s) := by
  have task (v : Slot) : ((s.waitEnded t d).task v).state = (s.task v).state ∧ ((s.waitEnded t d).task v).priority = (s.task v).priority := by
    by_cases k : v = t
    · rw [k, State.waitEnded_task]; exact ⟨rfl, rfl⟩
    · rw [State.waitEnded_task_ne _ _ k]; exact ⟨rfl, rfl⟩
  have states : (s.waitEnded t d).states = s.states := funext fun v => (task v).1
  have ended := h.congr (s.waitEnded_queue t d) (s.waitEnded_port t d) states fun v => (task v).2
  rw [endWait_eq]
  exact (StaysFree.of_same ended states).trans (settleWaiter_stays ended t)

theorem serveRounds_stays (n : Nat) : ∀ s : State, s.DispatcherLaw → StaysFree s (serveRounds n s).1 := by
  induction n with
  | zero => exact fun s h => .refl h
  | succ n ih =>
    intro s h
    unfold serveRounds
    cases s.pool.waitQueue with
    | nil => exact .refl h
    | cons t rest =>
      cases grant : s.pool.grantFor (s.askedPages t) with
      | none =>
        simp only [grant]
        exact .refl h
      | some entry =>
        obtain ⟨f, k⟩ := entry
        simp only [grant]
        have states : (s.granted t rest f k).states = s.states := funext fun v => by rw [State.states, State.granted_task]; rfl
        have granted : (s.granted t rest f k).DispatcherLaw :=
          h.congr (fun _ => by rw [State.granted, State.updPool_queue]) (fun _ => by rw [State.granted, State.updPool_port]) states
            fun v => by rw [State.granted_task]
        have ended := (StaysFree.of_same granted states).trans (endWait_stays granted t (.ok (.page (BitVec.ofNat 8 k))))
        exact ended.trans (ih _ ended.law)

theorem serve_stays (h : s.DispatcherLaw) : StaysFree s (serve s) := serveRounds_stays _ s h

/-! ### The settings where a slot becomes FREE -/

/-- A slot that is FREE in the end, its generation kept, asks nothing of its other settings. -/
theorem Respects.of_freed {m : State} (before : Keeps e s m) (free : u.states t = .free) (after : Keeps e (freeSlot t m) u) :
    Respects e s u where
  tasks x hx v live := by
    by_cases k : v = t
    · subst k
      rcases live with rfl | ⟨-, live⟩
      · have kept : (u.task v).generation = _ := after.tasks .generation hx v
        rw [freeSlot_task_self] at kept
        exact kept.trans (before.tasks .generation hx v)
      · exact absurd free live
    · have kept := after.tasks x hx v
      rw [freeSlot_task_ne _ k] at kept
      exact (before.tasks x hx v).trans kept
  objects x hx := ((before.objects x hx).trans ((freeSlot_objects t m).ofObjects x)).trans (after.objects x hx)

theorem Respects.retire {m : State} (before : Keeps e s m) (but : m.DispatcherBut t) (wasHead : Bool) :
    Respects e s (retire t wasHead m) := by
  have stays := serve_stays but.freeSlot
  have free : (freeSlot t m).states t = .free := by rw [freeSlot_states, moveTo_self]
  rw [retire_eq]
  split
  · exact .of_freed before (stays.free t free) (serve_keeps _)
  · exact .of_freed before free (.refl e _)

/-! ### TASK.DELETE (R14, R15) -/

theorem cancelWait_states (t : Slot) (s : State) : (cancelWait t s).states = s.states := by
  funext v
  by_cases k : v = t
  · rw [k, State.states, State.states, cancelWait_task]
  · rw [State.states, State.states, cancelWait_task_ne s k]

theorem cancelWait_priority (t : Slot) (s : State) (v : Slot) : ((cancelWait t s).task v).priority = (s.task v).priority := by
  by_cases k : v = t
  · rw [k, cancelWait_task]
  · rw [cancelWait_task_ne s k]

theorem deleteTask_respects (h : s.DispatcherLaw) (t : Slot) : Respects [.generation] s (deleteTask t s) := by
  have next := nextGeneration_keeps t s
  have law : (nextGeneration t s).DispatcherLaw := h.updTask rfl rfl
  have states : (nextGeneration t s).states = s.states := State.updTask_states_eq rfl
  cases state : (s.task t).state with
  | free => simpa only [deleteTask, state] using (Keeps.refl _ s).respects
  | dormant =>
    simp only [deleteTask, state]
    exact .retire next (law.but (by rw [states, State.states, state]; simp [TaskState.Away])) _
  | held =>
    simp only [deleteTask, state]
    exact .retire next (law.but (by rw [states, State.states, state]; simp [TaskState.Away])) _
  | ready =>
    simp only [deleteTask, state]
    have ready : (nextGeneration t s).states t = .ready := by rw [states]; exact state
    refine .retire (next.trans (unqueue_frame _ _).keeps) ⟨?_, fun p => ?_⟩ _
    · have unqueued : (unqueue t (nextGeneration t s)).states = (nextGeneration t s).states := rfl
      rw [unqueued]
      exact law.arranged.unqueue ready
    · rw [unqueue, State.updQueue_port]; exact law.fits p
  | selected =>
    obtain ⟨p, found, incoming⟩ := h.exists_portOfIncoming (t := t) state
    simp only [deleteTask, state, found]
    have incoming' : (nextGeneration t s).isIncoming p t = true := by
      rw [nextGeneration, State.updTask_isIncoming]; exact incoming
    have redeciding : (nextGeneration t s).Redeciding p true (nextGeneration t s).states :=
      ⟨law.arranged, fun _ => .inl rfl, fun q _ => law.fits q, (law.fits p).quiet, (law.fits p).continues, (law.fits p).redecidable⟩
    obtain ⟨but, -, -⟩ := redecide_gone redeciding incoming' (by rw [states, State.states, state]; simp)
    exact .retire (next.trans (.redecide _ _ _ _)) but _
  | waiting =>
    simp only [deleteTask, state]
    have cancelled := cancelWait_states t (nextGeneration t s)
    refine .retire (next.trans (cancelWait_frame _ _).keeps) (State.DispatcherLaw.but ?_ ?_) _
    · exact law.congr (cancelWait_queue t _) (cancelWait_port t _) cancelled (cancelWait_priority t _)
    · rw [cancelled, states, State.states, state]; simp [TaskState.Away]
  | running =>
    obtain ⟨p, found, o⟩ := h.exists_portOfOccupant (t := t) state
    simp only [deleteTask, state, found]
    exact ((doom_keeps p t s).trans (redecideDeleted_frame _ _).keeps).respects

/-! ### Accept (R63, R64) -/

/-- A vacated port fits: it has neither offer nor disposition. -/
theorem Vacates.fits {y : Option Slot} (w : Vacates p y s s') (h : s.DispatcherLaw) (quiet : (s'.port p).QuietWhenDisabled) (q : Port) :
    (s'.port q).Fits := by
  by_cases k : p = q
  · subst k
    exact ⟨⟨by rw [w.disposition, w.offer]; simp, fun f hf => by rw [w.offer] at hf; cases hf⟩, quiet, fun f hf => by
      rw [w.offer] at hf; cases hf⟩
  · rw [w.others q k]; exact h.fits q

theorem Vacates.states_of_not_holds {y : Option Slot} (w : Vacates p y s s') {v : Slot} (k : ¬s.Holds p v) : s'.states v = s.states v := by
  rw [State.states, w.task, if_neg fun e => k (w.holds v e)]; rfl

theorem State.accepted_task (s : State) (p : Port) (y : Option Slot) (v : Slot) :
    (s.accepted p y).task v = if y = some v then (s.task v).resume else s.task v := by
  rw [State.accepted, settlePort, State.updPort_task, State.occupied_task]

theorem acceptSwitch_respects (h : s.DispatcherLaw) {f : Offer} (hf : (s.port p).occ.offer = some f) (switch : f.kind = .switchTask) :
    Respects e s (acceptSwitch p f.incoming s) := by
  have accepted := accepted_keeps (e := e) p f.incoming s
  rw [acceptSwitch_eq]
  cases o : (s.port p).occ.occupant with
  | none => exact accepted.respects
  | some x =>
    simp only
    unfold applyDisposition
    split
    case h_1 => exact (accepted.trans (readyHead_frame _ _).keeps).respects
    case h_2 => exact (accepted.trans (readyTail_frame _ _).keeps).respects
    case h_3 => exact (accepted.trans (.updState _ _ _ rfl)).respects
    case h_4 => exact (accepted.trans (.updState _ _ _ rfl)).respects
    case h_5 =>
      have vacates := h.accepted_vacates hf
      have here := (s.accepted_port p f.incoming p).trans (if_pos rfl)
      have claim (v : Slot) (i : s.isIncoming p v = true) : f.incoming = some v := by simpa [State.isIncoming, hf, switch] using i
      have live := (h.fits p).quiet.live hf
      refine .retire accepted ⟨(vacates.arranged h).places fun v => .inl ?_, vacates.fits h ?_⟩ _
      · by_cases k : v = x
        · subst k
          rw [moveTo_self, State.freed_of_holds (.inl o)]
          intro incoming
          have selected := (h.arranged.incomings v).2 ⟨p, show s.isIncoming p v = true by simp [State.isIncoming, hf, switch, incoming]⟩
          rw [h.states_occupant o] at selected
          cases selected
        · rw [moveTo_ne _ _ k]
          by_cases incoming : f.incoming = some v
          · rw [incoming, State.freed_self, State.states, State.accepted_task, if_pos rfl]; rfl
          · have not_held : ¬s.Holds p v := fun l =>
              l.elim (fun o' => k (Option.some.inj (o'.symm.trans o))) fun i => incoming (claim v i)
            rw [State.freed_of_not_holds not_held incoming, vacates.states_of_not_holds not_held]
      · rw [here]; exact fun disabled => absurd disabled live
    all_goals exact accepted.respects

theorem takeAccept_respects (h : s.DispatcherLaw) (value : Byte) : Respects e s (takeAccept p value s) := by
  have status (a : AcceptStatus) : Keeps e s (setAcceptStatus p a s) := .updPort e s p fun r => { r with occ := { r.occ with acceptStatus := a } }
  unfold takeAccept
  split
  · exact (status _).respects
  · cases hf : (s.port p).occ.offer with
    | none => exact (status _).respects
    | some f =>
      simp only
      split
      · exact (status _).respects
      · cases k : f.kind with
        | switchTask => exact acceptSwitch_respects h hf k
        | continueTask =>
          simp only [acceptContinue_eq]
          exact (accepted_keeps _ _ _).respects

/-! ### Port loss (R180, R181) -/

/-- The task that a removed offer leaves nowhere. -/
def removedIncoming (offer : Option Offer) : Option Slot := offer.bind fun f => if f.kind = .switchTask then f.incoming else none

theorem removedIncoming_iff {v : Slot} : removedIncoming (s.port p).occ.offer = some v ↔ s.isIncoming p v = true := by
  unfold removedIncoming State.isIncoming
  cases (s.port p).occ.offer <;> simp

theorem endLoss_eq (q : Port) (on : Bool) (offer : Option Offer) (must : Bool) (s : State) :
    endLoss q on offer must s =
      if must then serve (displace (removedIncoming offer) (if on then s.raise q .peerDown else s))
      else displace (removedIncoming offer) (if on then s.raise q .peerDown else s) := by
  cases offer with
  | none => rfl
  | some f =>
    simp only [endLoss, removedIncoming, Option.bind_some]
    by_cases k : f.kind = .switchTask
    · simp only [if_pos k]
    · simp only [if_neg k]; rfl

/-- The Dispatcher's records agree but for a task that may be nowhere. -/
def State.Awaits (s : State) : Option Slot → Prop
  | none => s.DispatcherLaw
  | some t => s.DispatcherBut t ∧ s.states t ≠ .free

theorem State.Awaits.updPort {f : PortRecord → PortRecord} (same : (s.port p).SameOccupancy (f (s.port p))) {y : Option Slot}
    (h : s.Awaits y) : (s.updPort p f).Awaits y := by
  have states : (s.updPort p f).states = s.states := by funext t; simp [State.states]
  cases y with
  | none => exact State.DispatcherLaw.updPort same h
  | some t =>
    obtain ⟨⟨arranged, fits⟩, live⟩ := h
    refine ⟨⟨?_, fun q => (fits q).updPort same⟩, by rw [states]; exact live⟩
    rw [states]
    exact arranged.updPort same

theorem displace_stays {y : Option Slot} (h : s.Awaits y) : StaysFree s (displace y s) := by
  cases y with
  | none => exact .refl h
  | some t => exact readyHead_stays h.1 h.2

theorem endLoss_stays {q : Port} {on must : Bool} {offer : Option Offer} (h : s.Awaits (removedIncoming offer)) :
    ∀ t, s.states t = .free → (endLoss q on offer must s).states t = .free := by
  intro t free
  have raised : (if on then s.raise q .peerDown else s).Awaits (removedIncoming offer) ∧
      (if on then s.raise q .peerDown else s).states t = .free := by
    split
    · refine ⟨State.Awaits.updPort (PortRecord.raise_sameOccupancy _ _) h, ?_⟩
      rw [State.states, State.raise, State.updPort_task]; exact free
    · exact ⟨h, free⟩
  have displaced := displace_stays raised.1
  have still := displaced.free t raised.2
  rw [endLoss_eq]
  split
  · exact (serve_stays displaced.law).free t still
  · exact still

/-- A doomed occupant that a loss frees leaves the incoming of its offer alone to be placed. -/
theorem freeSlot_awaits (h : s.DispatcherLaw) (o : (s.port p).occ.occupant = some x) :
    (freeSlot x (shutPort p s)).Awaits (removedIncoming (s.port p).occ.offer) := by
  have vacates := shutPort_vacates p s
  have here := (shutPort_port p s p).trans (if_pos rfl)
  have fits (q : Port) : ((freeSlot x (shutPort p s)).port q).Fits := by
    have := vacates.fits h (by rw [here]; exact fun _ => ⟨rfl, rfl, rfl⟩) q
    simpa [freeSlot] using this
  have held : s.freed p none x = .held := State.freed_of_holds (.inl o) (by simp)
  have arranged := (vacates.arranged h).freeSlot (t := x) (by rw [held]; exact away_held)
  have states (v : Slot) : (freeSlot x (shutPort p s)).states v = if v = x then .free else s.states v := by
    rw [freeSlot_states, moveTo]
    simp [State.states, shutPort]
  have running := h.states_occupant o
  cases y : removedIncoming (s.port p).occ.offer with
  | none =>
    refine State.dispatcherLaw_iff.2 ⟨arranged.places fun v => .inl ?_, fits⟩
    rw [states, moveTo]
    split
    · rfl
    · next k =>
      refine State.freed_of_not_holds (fun l => l.elim (fun o' => k (Option.some.inj (o'.symm.trans o))) fun i => ?_) (by simp)
      rw [removedIncoming_iff.2 i] at y; cases y
  | some t =>
    have incoming := removedIncoming_iff.1 y
    have selected := (h.arranged.incomings t).2 ⟨p, incoming⟩
    have ne : t ≠ x := by
      rintro rfl
      rw [running] at selected; cases selected
    refine ⟨⟨arranged.places fun v => .inl ?_, fits⟩, by rw [states, if_neg ne, selected]; simp⟩
    by_cases k : v = t
    · rw [k, moveTo_self, moveTo_ne _ _ ne, State.freed_of_holds (.inr incoming) (by simp)]
    · rw [moveTo_ne _ _ k, states, moveTo]
      split
      · rfl
      · next k' =>
        refine State.freed_of_not_holds (fun l => l.elim (fun o' => k' (Option.some.inj (o'.symm.trans o))) fun i => k ?_) (by simp)
        exact Option.some.inj ((removedIncoming_iff.2 i).symm.trans y)

theorem losePortWhole_respects (h : s.DispatcherLaw) (p : Port) : Respects e s (losePortWhole p s) := by
  have shut := shutPort_keeps (e := e) p s
  rw [losePortWhole_eq]
  cases o : (s.port p).occ.occupant with
  | none => exact (shut.trans (endLoss_keeps _ _ _ _ _)).respects
  | some x =>
    simp only
    split
    · exact .of_freed shut (endLoss_stays (freeSlot_awaits h o) x (by rw [freeSlot_states, moveTo_self])) (endLoss_keeps _ _ _ _ _)
    · exact ((shut.trans (loseOccupant_keeps _ _ _)).trans (endLoss_keeps _ _ _ _ _)).respects

end

end Sys2Proof.Machine

/-! ## Which row changes which setting: every row -/

namespace Sys2Proof.Machine

/-- What a row sets. -/
def settingsOf : Instr → List Setting
  | .taskDelete _ | .taskExit _ => [.generation]
  | .taskSetpri _ => [.priority]
  | .taskSetaff _ => [.affinity]
  | .taskSetctx _ => [.context]
  | .xchOpen _ => [.cells]
  | .xchClose _ => [.exchanges, .cells]
  | .evtConfig _ => [.modes]
  | .pageConfig _ => [.poolSize]
  | .timeConfig _ => [.storedN]
  | .tick => [.counter]
  | _ => []

/-- What comes of a row respects the settings that are not its own. -/
def Respecting (e : List Setting) (s : State) (o : Host.Outcome State Fault Refusal) : Prop := ∀ u, o = .next u → Respects e s u

section
variable {e : List Setting} {s u : State} {p : Port} {x t : Slot}

theorem respecting_next (h : Respects e s u) : Respecting e s (.next u) := fun v k => by cases k; exact h

theorem Respects.refl (e : List Setting) (s : State) : Respects e s s := (Keeps.refl e s).respects

/-- A port is no setting. -/
theorem Respects.updPort (h : Respects e s u) (p : Port) (f : PortRecord → PortRecord) : Respects e s (u.updPort p f) := by
  have after := Keeps.updPort e u p f
  refine ⟨fun x hx t live => (h.tasks x hx t ?_).trans (after.tasks x hx t), fun x hx => (h.objects x hx).trans (after.objects x hx)⟩
  rwa [State.states, State.states, State.updPort_task] at live

theorem Respects.complete {r : Reply} (h : Respects e s r.state) (p : Port) : Respects e s (complete p r) :=
  (h.updPort p fun r' => { r' with unit := { r'.unit with command := none, res := r.result.code, results := r.bytes } }).updPort p _

theorem respecting_take {c : CommandCode} {k : List Byte → State → State} (keeps : ∀ params, Respects e s (k params s)) :
    Respecting e s (take p c k s) := by
  unfold take
  split
  · exact respecting_next (.refl e s)
  · split
    · exact respecting_next (keeps _)
    · exact respecting_next (.refl e s)

theorem respecting_command {c : CommandCode} {body : List Byte → State → Reply} (keeps : ∀ params, Respects e s (body params s).state) :
    Respecting e s (command p c body s) :=
  respecting_take fun params => (keeps params).complete p

theorem respects_withCaller {k : Slot → Reply} (keeps : ∀ x, Respects e s (k x).state) : Respects e s (withCaller p s k).state := by
  unfold withCaller
  split
  · exact .refl e s
  · exact keeps _

theorem respects_withWaiter {k : Option Slot → Reply} (option : Byte) (keeps : ∀ caller, Respects e s (k caller).state) :
    Respects e s (withWaiter p option s k).state := by
  unfold withWaiter
  split
  · exact respects_withCaller fun x => keeps _
  · exact keeps none

theorem respects_withTask {k : Slot → Reply} (v : Half) (keeps : ∀ t, Respects e s (k t).state) :
    Respects e s (withTask v s k).state := by
  unfold withTask
  split
  · exact .refl e s
  · exact keeps _

theorem respects_withExchange {k : Fin 16 → Reply} (id : Byte) (keeps : ∀ y, Respects e s (k y).state) :
    Respects e s (withExchange id s k).state := by
  unfold withExchange
  split
  · exact .refl e s
  · exact keeps _

/-! ### The rows of the commands on tasks -/

/-- A FREE slot may get a new record of its generation. -/
theorem Respects.create (free : s.states t = .free) {f : TaskRecord → TaskRecord}
    (generation : (f (s.task t)).generation = (s.task t).generation) : Respects e s (s.updTask t f) where
  tasks x _ v live := by
    by_cases k : v = t
    · subst k
      rw [State.updTask_task_self]
      rcases live with rfl | ⟨live, -⟩
      · exact generation
      · exact absurd free live
    · rw [State.updTask_task_ne _ _ (Ne.symm k)]; exact .refl x _
  objects x _ := by cases x <;> simp [Setting.OfObjects]

theorem execTaskCreate_respects (p : Port) (s : State) : Respecting e s (execTaskCreate p s) := by
  refine respecting_command fun params => ?_
  split
  · split
    · split
      · exact .refl e s
      · next found =>
        simp only [done_state]
        refine .create (lowestFree_free found) ?_
        rfl
    · exact .refl e s
  · exact .refl e s

theorem execTaskStart_respects (p : Port) (s : State) : Respecting e s (execTaskStart p s) := by
  refine respecting_command fun params => ?_
  split
  · refine respects_withTask _ fun t => ?_
    split
    · exact (readyTail_frame t s).keeps.respects
    · exact .refl e s
  · exact .refl e s

theorem execTaskDelete_respects (h : s.DispatcherLaw) (p : Port) : Respecting [.generation] s (execTaskDelete p s) := by
  refine respecting_command fun params => ?_
  split
  · exact respects_withTask _ fun t => deleteTask_respects h t
  · exact .refl _ s

theorem execTaskExit_respects (p : Port) (s : State) : Respecting [.generation] s (execTaskExit p s) := by
  refine respecting_command fun params => ?_
  split
  · exact respects_withCaller fun x => ((doom_keeps p x s).trans (.redecide _ _ _ _)).respects
  · exact .refl _ s

theorem execTaskHold_respects (p : Port) (s : State) : Respecting e s (execTaskHold p s) := by
  refine respecting_command fun params => ?_
  split
  · exact respects_withTask _ fun t => (holdTask_keeps t s).respects
  · exact .refl e s

theorem execTaskRelease_respects (p : Port) (s : State) : Respecting e s (execTaskRelease p s) := by
  refine respecting_command fun params => ?_
  split
  · exact respects_withTask _ fun t => (releaseTask_keeps t s).respects
  · exact .refl e s

theorem execTaskSetpri_respects (p : Port) (s : State) : Respecting [.priority] s (execTaskSetpri p s) := by
  refine respecting_command fun params => ?_
  split
  · split
    · exact .refl _ s
    · exact respects_withTask _ fun t => (setPriority_keeps t _ s).respects
  · exact .refl _ s

theorem execTaskSetaff_respects (p : Port) (s : State) : Respecting [.affinity] s (execTaskSetaff p s) := by
  refine respecting_command fun params => ?_
  split
  · split
    · exact .refl _ s
    · exact respects_withTask _ fun t => (setAffinity_keeps t _ s).respects
  · exact .refl _ s

theorem execTaskSetctx_respects (p : Port) (s : State) : Respecting [.context] s (execTaskSetctx p s) := by
  refine respecting_command fun params => ?_
  split
  · refine respects_withTask _ fun t => ?_
    split
    · simp only [done_state]
      refine (Keeps.updTask s t fun x hx => ?_).respects
      cases x <;> trivial
    · exact .refl _ s
  · exact .refl _ s

theorem execTaskQuery_respects (p : Port) (s : State) : Respecting e s (execTaskQuery p s) := by
  refine respecting_command fun params => ?_
  split
  · exact respects_withTask _ fun t => .refl e s
  · exact .refl e s

theorem execTaskSelf_respects (p : Port) (s : State) : Respecting e s (execTaskSelf p s) := by
  refine respecting_command fun params => ?_
  split
  · exact respects_withCaller fun x => .refl e s
  · exact .refl e s

theorem execTaskYield_respects (p : Port) (s : State) : Respecting e s (execTaskYield p s) := by
  refine respecting_command fun params => ?_
  split
  · exact respects_withCaller fun x => (yieldPort_keeps p x s).respects
  · exact .refl e s

theorem execTaskDelay_respects (p : Port) (s : State) : Respecting e s (execTaskDelay p s) := by
  refine respecting_command fun params => ?_
  split
  · refine respects_withCaller fun x => ?_
    split
    · exact .refl e s
    · exact (beginWait_keeps _ _ _ _ s).respects
  · exact .refl e s

/-! ### The rows of the commands on objects -/

theorem execXchOpen_respects (p : Port) (s : State) : Respecting [.cells] s (execXchOpen p s) := by
  refine respecting_command fun params => ?_
  split
  · split
    · exact .refl _ s
    · split
      · split
        · exact .refl _ s
        · exact (openExchange_keeps _ _ s).respects
      · split
        · split
          · exact .refl _ s
          · exact (openExchange_keeps _ _ s).respects
        · exact .refl _ s
  · exact .refl _ s

theorem execXchClose_respects (p : Port) (s : State) : Respecting [.exchanges, .cells] s (execXchClose p s) := by
  refine respecting_command fun params => ?_
  split
  · exact respects_withExchange _ fun y => (closeExchange_keeps y s).respects
  · exact .refl _ s

theorem execXchQuery_respects (p : Port) (s : State) : Respecting e s (execXchQuery p s) := by
  refine respecting_command fun params => ?_
  split
  · exact respects_withExchange _ fun y => .refl e s
  · exact .refl e s

theorem execMsgSend_respects (p : Port) (s : State) : Respecting e s (execMsgSend p s) := by
  refine respecting_command fun params => ?_
  split
  · refine respects_withWaiter _ fun caller => ?_
    split
    · exact .refl e s
    · exact respects_withExchange _ fun y => (sendMessage_keeps _ _ _ _ _ _ s).respects
  · exact .refl e s

theorem execMsgRecv_respects (p : Port) (s : State) : Respecting e s (execMsgRecv p s) := by
  refine respecting_command fun params => ?_
  split
  · refine respects_withWaiter _ fun caller => ?_
    split
    · exact .refl e s
    · exact respects_withExchange _ fun y => (receiveMessage_keeps _ _ _ _ _ _ _ s).respects
  · exact .refl e s

theorem execCntAcquire_respects (p : Port) (s : State) : Respecting e s (execCntAcquire p s) := by
  refine respecting_command fun params => ?_
  split
  · refine respects_withWaiter _ fun caller => ?_
    split
    · exact .refl e s
    · exact respects_withExchange _ fun y => (acquireUnit_keeps _ _ _ _ _ s).respects
  · exact .refl e s

theorem execCntRelease_respects (p : Port) (s : State) : Respecting e s (execCntRelease p s) := by
  refine respecting_command fun params => ?_
  split
  · exact respects_withExchange _ fun y => (releaseUnit_keeps y s).respects
  · exact .refl e s

theorem execEvtConfig_respects (p : Port) (s : State) : Respecting [.modes] s (execEvtConfig p s) := by
  refine respecting_command fun params => ?_
  split
  · split
    · simp only [done_state]
      refine (Keeps.updLine s _ fun no => ?_).respects
      exact absurd List.mem_cons_self no
    · exact .refl _ s
  · exact .refl _ s

theorem execEvtWait_respects (p : Port) (s : State) : Respecting e s (execEvtWait p s) := by
  refine respecting_command fun params => ?_
  split
  · refine respects_withWaiter _ fun caller => ?_
    split
    · exact .refl e s
    · split
      · exact .refl e s
      · split
        · simp only [done_state]
          refine (Keeps.updLine s _ fun _ => ?_).respects
          exact ⟨rfl, rfl⟩
        · exact (waitOr_keeps _ _ _ _ _ s).respects
  · exact .refl e s

theorem execEvtQuery_respects (p : Port) (s : State) : Respecting e s (execEvtQuery p s) := by
  refine respecting_command fun params => ?_
  split
  · split
    · exact .refl e s
    · next l _ =>
      have cleared : Keeps e s (s.updLine l fun r => { r with saturated := false }) := .updLine s l fun _ => ⟨rfl, rfl⟩
      simp only [done_state]
      split
      · exact cleared.respects
      · exact (cleared.trans (.draw _ _)).respects
  · exact .refl e s

theorem execPageAlloc_respects (p : Port) (s : State) : Respecting e s (execPageAlloc p s) := by
  refine respecting_command fun params => ?_
  split
  · refine respects_withCaller fun x => ?_
    split
    · exact .refl e s
    · exact (allocate_keeps _ _ _ _ _ s).respects
  · exact .refl e s

theorem execPageFree_respects (p : Port) (s : State) : Respecting e s (execPageFree p s) := by
  refine respecting_command fun params => ?_
  split
  · refine respects_withCaller fun x => ?_
    split
    · exact .refl e s
    · split
      · exact .refl e s
      · exact (removeAndServe_keeps _ s).respects
  · exact .refl e s

theorem execPageGive_respects (p : Port) (s : State) : Respecting e s (execPageGive p s) := by
  refine respecting_command fun params => ?_
  split
  · refine respects_withCaller fun x => ?_
    split
    · exact .refl e s
    · refine respects_withTask _ fun t => ?_
      split
      · exact .refl e s
      · simp only [done_state]
        refine (Keeps.updPool s fun _ => ?_).respects
        rfl
  · exact .refl e s

theorem execPageQuery_respects (p : Port) (s : State) : Respecting e s (execPageQuery p s) := by
  refine respecting_command fun params => ?_
  split
  · split
    · exact .refl e s
    · exact .refl e s
  · exact .refl e s

theorem execPageReclaim_respects (p : Port) (s : State) : Respecting e s (execPageReclaim p s) := by
  refine respecting_command fun params => ?_
  split
  · split
    · exact .refl e s
    · split
      · exact .refl e s
      · exact (removeAndServe_keeps _ s).respects
  · exact .refl e s

theorem execPageConfig_respects (p : Port) (s : State) : Respecting [.poolSize] s (execPageConfig p s) := by
  refine respecting_command fun params => ?_
  split
  · split
    · exact .refl _ s
    · split
      · exact .refl _ s
      · exact ((Keeps.updPool s fun no => absurd List.mem_cons_self no).trans (serve_keeps _)).respects
  · exact .refl _ s

theorem execTimeConfig_respects (p : Port) (s : State) : Respecting [.storedN] s (execTimeConfig p s) := by
  refine respecting_command fun params => ?_
  split
  · simp only
    split
    · exact .refl _ s
    · refine (Keeps.setTime s (fun no => ?_) fun _ => ?_).respects
      · exact absurd List.mem_cons_self no
      · rfl
  · exact .refl _ s

theorem execTimeRead_respects (p : Port) (s : State) : Respecting e s (execTimeRead p s) := by
  refine respecting_command fun params => ?_
  split
  · exact .refl e s
  · exact .refl e s

/-! ### The rows of the ports, the window and the inputs -/

theorem execPortEnable_respects (p : Port) (s : State) : Respecting e s (execPortEnable p s) := by
  refine respecting_command fun params => ?_
  split
  · split
    · exact .refl e s
    · exact (enablePort_keeps p s).respects
  · exact .refl e s

theorem complete_dispatcherLaw (p : Port) (r : Reply) (h : r.state.DispatcherLaw) : (complete p r).DispatcherLaw :=
  State.DispatcherLaw.updPort (PortRecord.raise_sameOccupancy _ _)
    (State.DispatcherLaw.updPort (p := p)
      (f := fun r' => { r' with unit := { r'.unit with command := none, res := r.result.code, results := r.bytes } })
      ⟨rfl, rfl, rfl, rfl⟩ h)

/-- A port is lost in a state that differs in a port from the one before. -/
theorem Respects.losePort {m : State} (before : Keeps e s m) (states : m.states = s.states) (h : m.DispatcherLaw) (p : Port) :
    Respects e s (losePortWhole p m) := by
  have lost := losePortWhole_respects (e := e) h p
  refine ⟨fun x hx t live => (before.tasks x hx t).trans (lost.tasks x hx t (states ▸ live)), fun x hx =>
    (before.objects x hx).trans (lost.objects x hx)⟩

theorem execPortDrop_respects (h : s.DispatcherLaw) (p : Port) : Respecting e s (execPortDrop p s) := by
  refine respecting_take fun params => ?_
  have completed := complete_keeps (e := e) p (done [] s)
  split
  · split
    · refine .losePort completed ?_ (complete_dispatcherLaw p (done [] s) h) p
      funext t
      simp [State.states, complete, State.updUnit, State.raise]
    · exact (complete_keeps p (refuse .wrongState s)).respects
  · exact (complete_keeps p (refuse .paramCount s)).respects

theorem execPeerDrop_respects (h : s.DispatcherLaw) (p : Port) : Respecting e s (execPeerDrop p s) := by
  refine respecting_command fun params => ?_
  split
  · split
    · exact losePortWhole_respects h _
    · exact .refl e s
  · exact .refl e s

theorem execBadCommand_respects (p : Port) (s : State) : Respecting e s (execBadCommand p s) := by
  unfold execBadCommand
  split
  · exact respecting_next (.refl e s)
  · split
    · exact respecting_next (.refl e s)
    · exact respecting_next (complete_keeps p (refuse .badCommand s)).respects

theorem respecting_access {f : State → State} (keeps : Respects e s (f s)) : Respecting e s (access p f s) := by
  unfold access
  split
  · exact respecting_next keeps
  · exact respecting_next (.refl e s)

theorem updUnit_keeps (p : Port) (f : PortUnit → PortUnit) (s : State) : Keeps e s (s.updUnit p f) :=
  .updPort e s p fun r => { r with unit := f r.unit }

theorem respecting_accessUnit (p : Port) (f : PortUnit → PortUnit) (s : State) :
    Respecting e s (access p (fun s => s.updUnit p f) s) := respecting_access (updUnit_keeps p f s).respects

theorem prstAssert_respects (h : s.DispatcherLaw) (p : Port) :
    Respects e s (losePortWhole p (s.updPort p fun r => { r with prst := true })) := by
  refine .losePort (.updPort e s p _) ?_ (State.DispatcherLaw.updPort ⟨rfl, rfl, rfl, rfl⟩ h) p
  funext t
  simp [State.states]

theorem execRstRelease_respects (s : State) : Respecting e s (execRstRelease s) := by
  unfold execRstRelease
  split
  · refine respecting_next (Keeps.respects ?_)
    have lines : Keeps e s { s with lines := s.lines.map LineRecord.unsampled } := by
      refine .setLines s fun l => ?_
      simp only [Fin.getElem_fin, Vector.getElem_map]
      exact ⟨rfl, rfl⟩
    exact ⟨lines.tasks, fun x hx => by cases x <;> exact lines.objects _ hx⟩
  · exact respecting_next (.refl e s)

/-! ### All of them -/

/-- Every row but the device resets respects the settings that are not its own. -/
theorem exec_respects (h : s.DispatcherLaw) (c : Instr) (no_reset : ∀ p, c ≠ .deviceReset p) (no_rst : c ≠ .rstAssert) :
    Respecting (settingsOf c) s (exec c s) := by
  cases c with
  | taskCreate p => exact execTaskCreate_respects p s
  | taskStart p => exact execTaskStart_respects p s
  | taskDelete p => exact execTaskDelete_respects h p
  | taskExit p => exact execTaskExit_respects p s
  | taskHold p => exact execTaskHold_respects p s
  | taskRelease p => exact execTaskRelease_respects p s
  | taskSetpri p => exact execTaskSetpri_respects p s
  | taskSetaff p => exact execTaskSetaff_respects p s
  | taskSetctx p => exact execTaskSetctx_respects p s
  | taskQuery p => exact execTaskQuery_respects p s
  | taskSelf p => exact execTaskSelf_respects p s
  | taskYield p => exact execTaskYield_respects p s
  | taskDelay p => exact execTaskDelay_respects p s
  | xchOpen p => exact execXchOpen_respects p s
  | xchClose p => exact execXchClose_respects p s
  | xchQuery p => exact execXchQuery_respects p s
  | msgSend p => exact execMsgSend_respects p s
  | msgRecv p => exact execMsgRecv_respects p s
  | cntAcquire p => exact execCntAcquire_respects p s
  | cntRelease p => exact execCntRelease_respects p s
  | evtConfig p => exact execEvtConfig_respects p s
  | evtWait p => exact execEvtWait_respects p s
  | evtQuery p => exact execEvtQuery_respects p s
  | pageAlloc p => exact execPageAlloc_respects p s
  | pageFree p => exact execPageFree_respects p s
  | pageGive p => exact execPageGive_respects p s
  | pageQuery p => exact execPageQuery_respects p s
  | pageReclaim p => exact execPageReclaim_respects p s
  | pageConfig p => exact execPageConfig_respects p s
  | timeConfig p => exact execTimeConfig_respects p s
  | timeRead p => exact execTimeRead_respects p s
  | portEnable p => exact execPortEnable_respects p s
  | portDrop p => exact execPortDrop_respects h p
  | peerDrop p => exact execPeerDrop_respects h p
  | deviceReset p => exact absurd rfl (no_reset p)
  | badCommand p => exact execBadCommand_respects p s
  | prmWrite p v => exact respecting_accessUnit p _ s
  | prmRead p =>
    rw [exec, execPrmRead]
    split
    · exact respecting_next (updUnit_keeps p _ s).respects
    · exact respecting_next (updUnit_keeps p _ s).respects
  | intpWrite p v => exact respecting_accessUnit p _ s
  | inteWrite p v => exact respecting_accessUnit p _ s
  | accept p v => exact respecting_access (takeAccept_respects h v)
  | writeIgnored p l v => exact respecting_next (.refl _ s)
  | prstAssert p => exact respecting_next (prstAssert_respects h p)
  | prstRelease p => exact respecting_next (Keeps.updPort _ s p _).respects
  | rstAssert => exact absurd rfl no_rst
  | rstRelease => exact execRstRelease_respects s
  | lineEvent l edge =>
    rw [exec, execLineEvent]
    split
    · exact respecting_next (.refl _ s)
    · exact respecting_next (recogniseEdge_keeps l edge s).respects
  | tick =>
    rw [exec, execTick]
    split
    · exact respecting_next (.refl _ s)
    · exact respecting_next (tickWhole_keeps s).respects
  | expiry t => exact respecting_next (expire_keeps t s).respects
  | sliceExpiry p =>
    rw [exec, execSliceExpiry]
    split
    · exact respecting_next (countQuantum_keeps p s).respects
    · exact respecting_next (.refl _ s)
  | cmdWrite p code => exact respecting_accessUnit p _ s
  | lineSample levels =>
    rw [exec, execLineSample]
    split
    · exact respecting_next (.refl _ s)
    · exact respecting_next (sampleLines_keeps levels s).respects

theorem not_mem_settingsOf (c : Instr) :
    ((∀ p, c ≠ .taskDelete p) → (∀ p, c ≠ .taskExit p) → .generation ∉ settingsOf c) ∧
      ((∀ p, c ≠ .taskSetpri p) → .priority ∉ settingsOf c) ∧ ((∀ p, c ≠ .taskSetaff p) → .affinity ∉ settingsOf c) ∧
      ((∀ p, c ≠ .taskSetctx p) → .context ∉ settingsOf c) ∧ .quantum ∉ settingsOf c ∧
      ((∀ p, c ≠ .xchClose p) → .exchanges ∉ settingsOf c) ∧
      ((∀ p, c ≠ .xchOpen p) → (∀ p, c ≠ .xchClose p) → .cells ∉ settingsOf c) ∧
      ((∀ p, c ≠ .evtConfig p) → .modes ∉ settingsOf c) ∧ ((∀ p, c ≠ .pageConfig p) → .poolSize ∉ settingsOf c) ∧
      ((∀ p, c ≠ .timeConfig p) → .storedN ∉ settingsOf c) ∧ (c ≠ .tick → .counter ∉ settingsOf c) := by
  cases c <;> simp [settingsOf]

/-- Settles O55. -/
theorem fieldsChangeOnlyByTheirCommands : Obligations.FieldsChangeOnlyByTheirCommands := by
  intro c s u law e no_reset no_rst
  have respects := exec_respects law c no_reset no_rst u e
  obtain ⟨generation, priority, affinity, context, quantum, exchanges, cells, modes, poolSize, storedN, counter⟩ := not_mem_settingsOf c
  refine ⟨fun t => ⟨fun h k => respects.tasks _ (generation h k) t (.inl rfl), fun was now => ⟨fun h => ?_, fun h => ?_, fun h => ?_, ?_⟩⟩,
    fun x h => respects.objects _ (exchanges h) x, fun h k => respects.objects _ (cells h k), fun l h => respects.objects _ (modes h) l,
    fun h => respects.objects _ (poolSize h), fun h => respects.objects _ (storedN h), fun h => respects.objects _ (counter h)⟩
  · exact respects.tasks _ (priority h) t (.inr ⟨was, now⟩)
  · exact respects.tasks _ (affinity h) t (.inr ⟨was, now⟩)
  · exact respects.tasks _ (context h) t (.inr ⟨was, now⟩)
  · exact respects.tasks _ quantum t (.inr ⟨was, now⟩)

end

end Sys2Proof.Machine

/-! ## The Dispatcher's laws by themselves (R29, R38, R45, R47 to R49)

`State.Lawful` keeps the Dispatcher's laws with the help of every other law. They need none of them: each operation keeps
the agreement of queues, ports and places from that agreement alone, and the urgency of the nexts from the two together. The
parameter `asked` says whether urgency is followed too, so that one development settles both statements. -/

namespace Sys2Proof.Machine

/-- The Dispatcher's records agree with the places of the tasks, and, where that is asked for, no READY task is more urgent
than the next of a port it may use. -/
structure State.Orderly (s : State) (asked : Prop) : Prop where
  dispatcher : s.DispatcherLaw
  urgency : asked → s.UrgencyLaw

/-- The same but for some tasks, which the Dispatcher has nowhere whatever their records say. -/
structure State.OrderlyBut (s : State) (v : Slot → Prop) (asked : Prop) : Prop where
  arranged : ∃ place, s.Arranged place ∧ (∀ u, v u → (place u).Away) ∧ ∀ u, ¬v u → place u = s.states u
  fits : ∀ p, (s.port p).Fits
  urgency : asked → ∀ p, s.UrgentOn p v

/-- The same but for one port, which is about to be re-decided. -/
structure State.Unsettled (s : State) (p : Port) (asked : Prop) : Prop where
  redeciding : s.Redeciding p false s.states
  urgency : asked → ∀ q, p ≠ q → s.UrgentOn q Nobody

section
variable {s s' : State} {v w : Slot → Prop} {asked : Prop} {p : Port} {x t : Slot} {f : TaskRecord → TaskRecord}

/-! ### What the laws do not read -/

/-- The states agree in all that the Dispatcher's laws read. -/
structure SamePlacing (s s' : State) : Prop where
  queue : ∀ l, s'.queue l = s.queue l
  port : ∀ p, (s.port p).SameOccupancy (s'.port p)
  states : s'.states = s.states
  priority : ∀ t, (s'.task t).priority = (s.task t).priority
  affinity : ∀ t, (s'.task t).affinity = (s.task t).affinity

theorem PortRecord.SameOccupancy.refl (r : PortRecord) : r.SameOccupancy r := ⟨rfl, rfl, rfl, rfl⟩

theorem PortRecord.Fits.sameOccupancy {r r' : PortRecord} (h : r.Fits) (same : r.SameOccupancy r') : r'.Fits := by
  obtain ⟨disposition, quiet, continues⟩ := h
  obtain ⟨life, occupant, offer, departs⟩ := same
  refine ⟨?_, ?_, ?_⟩
  · simpa only [Occupancy.DispositionFits, occupant, offer, departs] using disposition
  · simpa only [PortRecord.QuietWhenDisabled, life, occupant, offer, departs] using quiet
  · simpa only [occupant, offer] using continues

theorem SamePlacing.arranged (same : SamePlacing s s') {place : Slot → TaskState} (h : s.Arranged place) : s'.Arranged place :=
  h.reprioritised same.queue (fun t _ => same.priority t) (fun p => (same.port p).occupant) fun p => (same.port p).offer

theorem SamePlacing.urgentOn (same : SamePlacing s s') (h : s.UrgentOn p v) : s'.UrgentOn p v := by
  obtain ⟨life, occupant, offer, -⟩ := same.port p
  refine h.congr same.states same.priority same.affinity ?_ ?_
  · simp only [State.next, offer, occupant]
  · simp only [PortRecord.isEnabled, life]

theorem State.Orderly.congr (h : s.Orderly asked) (same : SamePlacing s s') : s'.Orderly asked where
  dispatcher := State.dispatcherLaw_iff.2
    ⟨by rw [same.states]; exact same.arranged h.dispatcher.arranged, fun p => (h.dispatcher.fits p).sameOccupancy (same.port p)⟩
  urgency a := State.urgencyLaw_iff.2 fun p => same.urgentOn (State.urgencyLaw_iff.1 (h.urgency a) p)

theorem State.OrderlyBut.congr (h : s.OrderlyBut v asked) (same : SamePlacing s s') : s'.OrderlyBut v asked where
  arranged := by
    obtain ⟨place, a, away, here⟩ := h.arranged
    exact ⟨place, same.arranged a, away, fun u hu => by rw [here u hu, same.states]⟩
  fits p := (h.fits p).sameOccupancy (same.port p)
  urgency a p := same.urgentOn (h.urgency a p)

/-- Tasks, queues and ports are all that is read. -/
theorem SamePlacing.of_objects (task : ∀ t, s'.task t = s.task t) (queue : ∀ l, s'.queue l = s.queue l)
    (port : ∀ p, s'.port p = s.port p) : SamePlacing s s' where
  queue := queue
  port p := port p ▸ .refl _
  states := funext fun t => by rw [State.states, task]; rfl
  priority t := by rw [task]
  affinity t := by rw [task]

theorem SamePlacing.of_fields (tasks : s'.tasks = s.tasks) (queues : s'.queues = s.queues) (portA : s'.portA = s.portA)
    (portB : s'.portB = s.portB) : SamePlacing s s' :=
  .of_objects (fun t => by rw [State.task, State.task, tasks]) (fun l => by rw [State.queue, State.queue, queues])
    fun p => by cases p <;> assumption

theorem SamePlacing.updTask (state : (f (s.task t)).state = (s.task t).state) (priority : (f (s.task t)).priority = (s.task t).priority)
    (affinity : (f (s.task t)).affinity = (s.task t).affinity) : SamePlacing s (s.updTask t f) where
  queue l := by simp
  port p := by rw [State.updTask_port]; exact .refl _
  states := State.updTask_states_eq state
  priority u := by
    rw [State.updTask_task]
    split
    · next e => exact e ▸ priority
    · rfl
  affinity u := by
    rw [State.updTask_task]
    split
    · next e => exact e ▸ affinity
    · rfl

theorem SamePlacing.updPort {f : PortRecord → PortRecord} (same : (s.port p).SameOccupancy (f (s.port p))) :
    SamePlacing s (s.updPort p f) where
  queue l := by simp
  port q := same.all q
  states := funext fun t => by simp [State.states]
  priority t := by simp
  affinity t := by simp

/-! ### A task between two places -/

theorem away_free : TaskState.free.Away := by simp [TaskState.Away]

theorem away_dormant : TaskState.dormant.Away := by simp [TaskState.Away]

theorem away_waiting : TaskState.waiting.Away := by simp [TaskState.Away]

theorem State.states_away {y : TaskState} (state : (s.task t).state = y) (away : y.Away) : (s.states t).Away := by
  rw [State.states, state]; exact away

/-- Where the tasks left out are none the laws hold. -/
theorem State.OrderlyBut.orderly (h : s.OrderlyBut v asked) (nobody : ∀ u, ¬v u) : s.Orderly asked where
  dispatcher := by
    obtain ⟨place, a, -, here⟩ := h.arranged
    obtain rfl : place = s.states := funext fun u => here u (nobody u)
    exact State.dispatcherLaw_iff.2 ⟨a, h.fits⟩
  urgency a := State.urgencyLaw_iff.2 fun p => (h.urgency a p).mono nobody

theorem State.OrderlyBut.of_dispatcherBut (h : s.DispatcherBut t) (urgency : asked → ∀ p, s.UrgentOn p (· = t)) :
    s.OrderlyBut (· = t) asked where
  arranged := ⟨_, h.arranged, fun u e => by rw [e, moveTo_self]; exact away_held, fun _ ne => moveTo_ne _ _ ne⟩
  fits := h.fits
  urgency := urgency

theorem State.OrderlyBut.dispatcherBut (h : s.OrderlyBut (· = t) asked) : s.DispatcherBut t := by
  obtain ⟨place, a, away, here⟩ := h.arranged
  refine ⟨a.places fun u => ?_, h.fits⟩
  by_cases e : u = t
  · rw [e, moveTo_self]
    exact .inr ⟨away t rfl, away_held⟩
  · rw [moveTo_ne _ _ e]
    exact .inl (here u e)

/-- A task that is nowhere is no port's next. -/
theorem State.OrderlyBut.not_next (h : s.OrderlyBut v asked) (hv : v t) (p : Port) : s.next p ≠ some t := fun e => by
  obtain ⟨place, a, away, -⟩ := h.arranged
  obtain ⟨-, not_running, not_selected⟩ := away t hv
  rcases State.next_cases (h.fits p).continues e with o | i
  · exact not_running ((a.occupants t).2 ⟨p, o⟩)
  · exact not_selected ((a.incomings t).2 ⟨p, i t rfl⟩)

/-- A task outside the Dispatcher may as well be left out of account. -/
theorem State.Orderly.but (h : s.Orderly asked) (outside : (s.states t).Away) : s.OrderlyBut (· = t) asked where
  arranged := ⟨_, h.dispatcher.arranged, fun _ e => e ▸ outside, fun _ _ => rfl⟩
  fits := h.dispatcher.fits
  urgency a p := (State.urgencyLaw_iff.1 (h.urgency a) p).mono fun _ => False.elim

/-- The record of a task that is nowhere may change. -/
theorem State.OrderlyBut.updTask (h : s.OrderlyBut v asked) (hv : v t) (f : TaskRecord → TaskRecord) :
    (s.updTask t f).OrderlyBut v asked := by
  have task {u : Slot} (hu : ¬v u) : (s.updTask t f).task u = s.task u :=
    State.updTask_task_ne _ _ fun e => hu (e ▸ hv)
  refine ⟨?_, fun p => by rw [State.updTask_port]; exact h.fits p, fun a p u r hu e => ?_⟩
  · obtain ⟨place, a, away, here⟩ := h.arranged
    refine ⟨place, a.reprioritised (fun _ => rfl) (fun u r => by rw [task fun hu => (away u hu).1 r])
      (fun p => by rw [State.updTask_port]) (fun p => by rw [State.updTask_port]), away, fun u hu => ?_⟩
    rw [here u hu, State.states, State.states, task hu]
  · rw [State.urgency_next (State.updTask_next ..) fun y n => by rw [task fun hy => h.not_next hy p n], State.urgency, task hu]
    refine h.urgency a p u (by rwa [State.states, task hu] at r) hu ?_
    simpa only [State.eligible, task hu, State.updTask_port] using e

/-- A task outside the Dispatcher whose record says so has its place. -/
theorem State.OrderlyBut.settle (h : s.OrderlyBut v asked) (out : ∀ u, w u ↔ v u ∧ u ≠ t) (outside : (s.states t).Away) :
    s.OrderlyBut w asked where
  arranged := by
    obtain ⟨place, a, away, here⟩ := h.arranged
    refine ⟨moveTo place t (s.states t), a.places fun u => ?_, fun u hu => ?_, fun u hu => ?_⟩
    · by_cases e : u = t
      · rw [e, moveTo_self]
        by_cases hv : v t
        · exact .inr ⟨away t hv, outside⟩
        · exact .inl (here t hv)
      · exact .inl (moveTo_ne _ _ e).symm
    · obtain ⟨hv, ne⟩ := (out u).1 hu
      rw [moveTo_ne _ _ ne]
      exact away u hv
    · by_cases e : u = t
      · rw [e, moveTo_self]
      · rw [moveTo_ne _ _ e]
        exact here u fun hv => hu ((out u).2 ⟨hv, e⟩)
  fits := h.fits
  urgency a p u r hu e := h.urgency a p u r (fun hv => hu ((out u).2 ⟨hv, by rintro rfl; exact outside.1 r⟩)) e

theorem nobody_but (t u : Slot) : Nobody u ↔ u = t ∧ u ≠ t := ⟨False.elim, fun k => k.2 k.1⟩

theorem State.OrderlyBut.settleLast (h : s.OrderlyBut (· = t) asked) (outside : (s.states t).Away) : s.Orderly asked :=
  (h.settle (nobody_but t) outside).orderly fun _ => id

/-- A task that is nowhere takes a place outside the Dispatcher. -/
theorem State.OrderlyBut.leave (h : s.OrderlyBut (· = t) asked) (outside : (f (s.task t)).state.Away) : (s.updTask t f).Orderly asked :=
  (h.updTask rfl f).settleLast (by rw [State.states, State.updTask_task_self]; exact outside)

/-- A task outside the Dispatcher may change its record, so long as it stays there. -/
theorem State.Orderly.updTask_away (h : s.Orderly asked) (outside : (s.states t).Away) (still : (f (s.task t)).state.Away) :
    (s.updTask t f).Orderly asked := (h.but outside).leave still

theorem State.OrderlyBut.readyTail (h : s.OrderlyBut (· = t) asked) : (readyTail t s).Orderly asked :=
  ⟨readyTail_dispatcher h.dispatcherBut, fun a => readyTail_urgent h.dispatcherBut (h.urgency a)⟩

theorem State.OrderlyBut.readyHead (h : s.OrderlyBut (· = t) asked) : (readyHead t s).Orderly asked :=
  ⟨readyHead_dispatcher h.dispatcherBut, fun a => readyHead_urgent h.dispatcherBut (h.urgency a)⟩

/-- A task that was nowhere is FREE, and its runs are released (R11, R156). -/
theorem State.OrderlyBut.freeSlot (h : s.OrderlyBut v asked) (hv : v t) (out : ∀ u, w u ↔ v u ∧ u ≠ t) :
    (freeSlot t s).OrderlyBut w asked := by
  have freed := (h.updTask hv fun r => blankTask r.generation).settle out
    (by rw [State.states, State.updTask_task_self]; exact away_free)
  exact freed.congr (.of_objects (State.updPool_task _ _) (State.updPool_queue _ _) (State.updPool_port _ _))

/-- A READY task is taken out of its queue. -/
theorem State.Orderly.unqueue (h : s.Orderly asked) (ready : s.states t = .ready) : (unqueue t s).OrderlyBut (· = t) asked := by
  have port (p : Port) : (Machine.unqueue t s).port p = s.port p := State.updQueue_port ..
  refine .of_dispatcherBut ⟨h.dispatcher.arranged.unqueue ready, fun p => by rw [port]; exact h.dispatcher.fits p⟩ fun a p => ?_
  refine ((State.urgencyLaw_iff.1 (h.urgency a) p).mono fun _ => False.elim).of_frame (unqueue_frame t s) ?_ fun _ r _ => r
  rw [(unqueue_frame t s).urgency, State.next_congr (port p)]

/-! ### A port that is re-decided -/

theorem State.Orderly.unsettled (h : s.Orderly asked) (p : Port) : s.Unsettled p asked where
  redeciding := ⟨h.dispatcher.arranged, fun _ => .inl rfl, fun q _ => h.dispatcher.fits q, (h.dispatcher.fits p).quiet,
    (h.dispatcher.fits p).continues, (h.dispatcher.fits p).redecidable⟩
  urgency a q _ := State.urgencyLaw_iff.1 (h.urgency a) q

theorem State.Unsettled.redecide (h : s.Unsettled p asked) : (redecide p false s).Orderly asked := by
  obtain ⟨dispatcher, -, urgency⟩ := redecide_dispatcher h.redeciding
  exact ⟨dispatcher, fun a => urgency (h.urgency a)⟩

/-- Where the port fits and its next is urgent enough it is settled as it stands. -/
theorem State.Unsettled.settle (h : s.Unsettled p asked) (fits : (s.port p).Fits) (urgent : asked → s.UrgentOn p Nobody) :
    s.Orderly asked where
  dispatcher := State.dispatcherLaw_iff.2 ⟨h.redeciding.arranged, fun q => by
    by_cases e : p = q
    · exact e ▸ fits
    · exact h.redeciding.others q e⟩
  urgency a := State.urgencyLaw_iff.2 fun q => by
    by_cases e : p = q
    · exact e ▸ urgent a
    · exact h.urgency a q e

/-- What changes of a port that is to be re-decided: its disposition, and the record of a task that is next of no other
port and keeps its place. -/
structure Unsettles (p : Port) (x : Slot) (d : Option Disposition) (s s' : State) : Prop where
  here : s'.port p = { s.port p with occ := { (s.port p).occ with disposition := d } }
  others : ∀ q, p ≠ q → s'.port q = s.port q
  queue : ∀ l, s'.queue l = s.queue l
  task : ∀ u, u ≠ x → s'.task u = s.task u
  state : s'.states x = s.states x
  not_ready : s.states x ≠ .ready
  next : ∀ q, p ≠ q → s.next q ≠ some x

theorem Unsettles.states {d : Option Disposition} (w : Unsettles p x d s s') : s'.states = s.states := by
  funext u
  by_cases e : u = x
  · rw [e, w.state]
  · rw [State.states, State.states, w.task u e]

theorem Unsettles.ne_of_ready {d : Option Disposition} (w : Unsettles p x d s s') {u : Slot} (r : s.states u = .ready) : u ≠ x := by
  rintro rfl
  exact w.not_ready r

theorem Unsettles.urgentOn {d : Option Disposition} (w : Unsettles p x d s s') {q : Port} (ne : p ≠ q) (h : s.UrgentOn q Nobody) :
    s'.UrgentOn q Nobody := by
  intro u r _ e
  rw [w.states] at r
  have task := w.task u (w.ne_of_ready r)
  rw [State.urgency_next (State.next_congr (w.others q ne)) fun y n => by
    rw [w.task y]; rintro rfl; exact w.next q ne n, State.urgency, task]
  refine h u r id ?_
  simpa only [State.eligible, task, w.others q ne] using e

theorem Unsettles.unsettled {d : Option Disposition} (w : Unsettles p x d s s') (h : s.Orderly asked)
    (whose : d = (s.port p).occ.disposition ∨ (s.port p).occ.occupant = some x)
    (redecidable : Occupancy.Redecidable { (s.port p).occ with disposition := d }) : s'.Unsettled p asked where
  redeciding := by
    have fits := h.dispatcher.fits p
    have occ (q : Port) : (s'.port q).occ.occupant = (s.port q).occ.occupant ∧ (s'.port q).occ.offer = (s.port q).occ.offer := by
      by_cases e : p = q
      · rw [← e, w.here]; exact ⟨rfl, rfl⟩
      · rw [w.others q e]; exact ⟨rfl, rfl⟩
    refine ⟨?_, fun _ => .inl rfl, fun q e => by rw [w.others q e]; exact h.dispatcher.fits q, ?_,
      by rw [w.here]; exact fits.continues, by rw [w.here]; exact redecidable⟩
    · rw [w.states]
      exact h.dispatcher.arranged.reprioritised w.queue (fun u r => by rw [w.task u (w.ne_of_ready r)])
        (fun q => (occ q).1) fun q => (occ q).2
    · rw [w.here]
      intro disabled
      obtain ⟨idle, settled, none_given⟩ := fits.quiet disabled
      refine ⟨idle, settled, whose.elim (·.trans none_given) fun occupied => ?_⟩
      rw [idle] at occupied; cases occupied
  urgency a q ne := w.urgentOn ne (State.urgencyLaw_iff.1 (h.urgency a) q)

/-- An occupant has a new disposition, and its record what goes with it. -/
theorem State.DispatcherLaw.redispose (h : s.DispatcherLaw) (o : (s.port p).occ.occupant = some x) (d : Disposition)
    (port : ∀ q, s'.port q = s.port q) (queue : ∀ l, s'.queue l = s.queue l) (task : ∀ u, u ≠ x → s'.task u = s.task u)
    (state : s'.states x = s.states x) : Unsettles p x (some d) s (s'.setDisposition p d) where
  here := by rw [State.setDisposition_port, if_pos rfl, port]
  others q ne := by rw [State.setDisposition_port, if_neg ne, port]
  queue l := by rw [State.setDisposition_queue, queue]
  task u ne := by rw [State.setDisposition_task, task u ne]
  state := by rw [setDisposition_states, state]
  not_ready := by rw [h.states_occupant o]; simp
  next q ne := h.occupant_not_next o ne

theorem State.Orderly.redispose (h : s.Orderly asked) (o : (s.port p).occ.occupant = some x) {d : Disposition}
    (redecidable : Occupancy.Redecidable { (s.port p).occ with disposition := some d })
    (state : (f (s.task x)).state = (s.task x).state) : (redecide p false ((s.updTask x f).setDisposition p d)).Orderly asked :=
  ((h.dispatcher.redispose o d (s.updTask_port x f) (fun _ => rfl) (fun _ ne => State.updTask_task_ne _ _ ne.symm)
    (by rw [State.updTask_states_eq state])).unsettled h (.inr o) redecidable).redecide

/-- An occupant leaves, with one of the dispositions that keep it from staying. -/
theorem State.Orderly.depart (h : s.Orderly asked) (o : (s.port p).occ.occupant = some x) {d : Disposition} (leaves : d.Leaves)
    (port : ∀ q, s'.port q = s.port q) (queue : ∀ l, s'.queue l = s.queue l) (task : ∀ u, u ≠ x → s'.task u = s.task u)
    (state : s'.states x = s.states x) : (s'.setDisposition p d).Unsettled p asked :=
  (h.dispatcher.redispose o d port queue task state).unsettled h (.inr o) (PortRecord.redecidable_leaving leaves (by rw [o]; simp))

/-- An occupant that departs in a SWITCH offer departs otherwise. -/
theorem State.Orderly.departOtherwise (h : s.Orderly asked) (o : (s.port p).occ.occupant = some x) {d d' : Disposition}
    (departs : (s.port p).occ.disposition = some d) (ne : d ≠ .stay) (ne' : d' ≠ .stay)
    (state : (f (s.task x)).state = (s.task x).state) : (redecide p false ((s.updTask x f).setDisposition p d')).Orderly asked := by
  obtain ⟨⟨g, hg, switch⟩, occupied⟩ := (h.dispatcher.fits p).switch departs ne
  exact h.redispose o (PortRecord.redecidable_switch hg switch occupied ne') state

/-- A SELECTED task is taken out of its offer, whatever its record says now, and the port is re-decided (R24, R58). -/
theorem State.Orderly.gone (h : s.Orderly asked) (incoming : s.isIncoming p t = true)
    (priority : (f (s.task t)).priority = (s.task t).priority) (affinity : (f (s.task t)).affinity = (s.task t).affinity)
    (not_ready : (f (s.task t)).state ≠ .ready) :
    (redecide p true (s.updTask t f)).OrderlyBut (· = t) asked ∧
      Dispatches Nobody (s.updTask t f) (redecide p true (s.updTask t f)) := by
  have port := s.updTask_port t f
  have incoming' : (s.updTask t f).isIncoming p t = true := by rw [State.updTask_isIncoming]; exact incoming
  have redeciding : (s.updTask t f).Redeciding p true s.states := by
    refine ⟨h.dispatcher.arranged.updTask priority, fun u => ?_, fun q _ => by rw [port]; exact h.dispatcher.fits q,
      by rw [port]; exact (h.dispatcher.fits p).quiet, by rw [port]; exact (h.dispatcher.fits p).continues,
      by rw [port]; exact (h.dispatcher.fits p).redecidable⟩
    by_cases e : u = t
    · rw [e]; exact .inr ⟨rfl, incoming'⟩
    · rw [State.updTask_states, moveTo_ne _ _ e]; exact .inl rfl
  obtain ⟨but, work, urgent⟩ := redecide_gone redeciding incoming' (by rw [State.updTask_states, moveTo_self]; exact not_ready)
  exact ⟨.of_dispatcherBut but fun a q => (urgent (fun r _ => (State.urgencyLaw_iff.1 (h.urgency a) r).updTask priority affinity
    fun e => absurd e not_ready) q).mono fun _ => False.elim, work⟩

end

end Sys2Proof.Machine

/-! ## Waits, serving and the freeing of a slot keep the Dispatcher's laws (R9, R51, R150, R156) -/

namespace Sys2Proof.Machine

section
variable {s s' : State} {asked : Prop} {p : Port} {x t : Slot} {f : TaskRecord → TaskRecord}

/-! ### Changes of the objects -/

theorem ListsOnly.samePlacing (h : ListsOnly s s') : SamePlacing s s' := .of_objects h.task h.queue h.port

theorem State.Orderly.updMailbox (h : s.Orderly asked) (y : Fin 16) (f : Mailbox → Mailbox) : (s.updMailbox y f).Orderly asked :=
  h.congr (.of_objects (State.updMailbox_task _ _ _) (State.updMailbox_queue _ _ _) (State.updMailbox_port _ _ _))

theorem State.Orderly.updCounter (h : s.Orderly asked) (y : Fin 16) (f : Counter → Counter) : (s.updCounter y f).Orderly asked :=
  h.congr (.of_objects (State.updCounter_task _ _ _) (State.updCounter_queue _ _ _) (State.updCounter_port _ _ _))

theorem State.Orderly.updLine (h : s.Orderly asked) (l : Line) (f : LineRecord → LineRecord) : (s.updLine l f).Orderly asked :=
  h.congr (.of_objects (State.updLine_task _ _ _) (State.updLine_queue _ _ _) (State.updLine_port _ _ _))

theorem State.Orderly.updPool (h : s.Orderly asked) (f : PagePool → PagePool) : (s.updPool f).Orderly asked :=
  h.congr (.of_objects (State.updPool_task _ _) (State.updPool_queue _ _) (State.updPool_port _ _))

/-- A change of a task's record that leaves its place, its priority and its affinity. -/
theorem State.Orderly.updTask (h : s.Orderly asked) (state : (f (s.task t)).state = (s.task t).state)
    (priority : (f (s.task t)).priority = (s.task t).priority) (affinity : (f (s.task t)).affinity = (s.task t).affinity) :
    (s.updTask t f).Orderly asked := h.congr (.updTask state priority affinity)

theorem State.Orderly.updPort (h : s.Orderly asked) {f : PortRecord → PortRecord}
    (same : (s.port p).SameOccupancy (f (s.port p))) : (s.updPort p f).Orderly asked := h.congr (.updPort same)

/-! ### The end of a wait (R9) -/

theorem settleWaiter_orderly (h : s.Orderly asked) (t : Slot) : (settleWaiter t s).Orderly asked := by
  cases state : (s.task t).state with
  | waiting =>
    have but := h.but (t := t) (State.states_away state away_waiting)
    rw [settleWaiter_waiting state]
    split
    · exact but.leave away_held
    · exact but.readyTail
  | running =>
    simp only [settleWaiter, state]
    cases found : s.portOfOccupant t with
    | none => exact h
    | some p =>
      have o := portOfOccupant_occupied found
      simp only
      split
      · next departs =>
        split
        · exact h.departOtherwise o departs (by simp) (by simp) rfl
        · have := h.departOtherwise (f := id) (d' := .readyTail) o departs (by simp) (by simp) rfl
          rwa [State.updTask_id] at this
      · exact h
  | free => simpa only [settleWaiter, state] using h
  | dormant => simpa only [settleWaiter, state] using h
  | ready => simpa only [settleWaiter, state] using h
  | selected => simpa only [settleWaiter, state] using h
  | held => simpa only [settleWaiter, state] using h

/-- The lists and the timer list of a wait are left, and the record changes in what no law of the Dispatcher reads. -/
theorem leaveWait_samePlacing (t : Slot) (s : State) : SamePlacing s (leaveWait t s) :=
  .of_objects (leaveWait_task t s) (leaveWait_queue t s) (leaveWait_port t s)

theorem endWait_orderly (h : s.Orderly asked) (t : Slot) (d : Delivery) : (endWait t d s).Orderly asked :=
  settleWaiter_orderly ((h.congr (leaveWait_samePlacing t s)).updTask rfl rfl rfl) t

theorem endWaits_orderly (d : Delivery) (ts : List Slot) : ∀ s : State, s.Orderly asked → (endWaits ts d s).Orderly asked := by
  induction ts with
  | nil => exact fun _ h => h
  | cons t ts ih => exact fun s h => ih _ (endWait_orderly h t d)

theorem cancelWait_orderly (h : s.Orderly asked) (t : Slot) : (cancelWait t s).Orderly asked :=
  (h.congr (leaveWait_samePlacing t s)).updTask rfl rfl rfl

/-! ### The beginning of a wait (R51) -/

theorem beginWait_orderly (h : s.Orderly asked) (o : (s.port p).occ.occupant = some x) (k : WaitKind) (d : Option TickCount) :
    (beginWait p x k d s).Orderly asked := by
  rw [beginWait_eq]
  exact (h.depart o (.inl rfl) (s.waiting_port x k d) (s.waiting_queue x k d) (fun _ ne => s.waiting_task_ne k d ne)
    (by rw [State.states, State.waiting_task]; rfl)).redecide

/-! ### Serving and the freeing of a slot (R11, R150, R156) -/

theorem serveRounds_orderly (n : Nat) : ∀ s : State, s.Orderly asked → (serveRounds n s).1.Orderly asked := by
  induction n with
  | zero => exact fun _ h => h
  | succ n ih =>
    intro s h
    unfold serveRounds
    cases s.pool.waitQueue with
    | nil => exact h
    | cons t rest =>
      simp only
      split
      · exact h
      · exact ih _ (endWait_orderly (h.updPool _) t _)

theorem serveCount_orderly (h : s.Orderly asked) : (serveCount s).1.Orderly asked := serveRounds_orderly _ s h

theorem serve_orderly (h : s.Orderly asked) : (serve s).Orderly asked := serveCount_orderly h

theorem State.OrderlyBut.retire (h : s.OrderlyBut (· = t) asked) (wasHead : Bool) : (retire t wasHead s).Orderly asked := by
  have freed := (h.freeSlot rfl (nobody_but t)).orderly fun _ => id
  rw [retire_eq]
  split
  · exact serve_orderly freed
  · exact freed

end

end Sys2Proof.Machine

/-! ## The task commands keep the Dispatcher's laws (R12 to R20, R24, R40, R61) -/

namespace Sys2Proof.Machine

section
variable {s s' : State} {asked : Prop} {p : Port} {x t f : Slot} {priority : Fin 32}

/-! ### Hold and release (R17, R18) -/

theorem setHoldFlag_orderly (h : s.Orderly asked) (t : Slot) : (setHoldFlag t s).Orderly asked := h.updTask rfl rfl rfl

theorem clearHoldFlag_orderly (h : s.Orderly asked) (t : Slot) : (clearHoldFlag t s).Orderly asked := h.updTask rfl rfl rfl

theorem holdOccupant_orderly (h : s.Orderly asked) (o : (s.port p).occ.occupant = some t) : (holdOccupant p t s).Orderly asked :=
  h.redispose o (PortRecord.redecidable_leaving (.inr (.inl rfl)) (by rw [o]; simp)) rfl

/-- A SELECTED task is HELD: its offer is revised without it. -/
theorem holdIncoming_orderly (h : s.Orderly asked) (incoming : s.isIncoming p t = true) :
    (redecide p true (becomeHeld t s)).Orderly asked := by
  obtain ⟨but, work⟩ := h.gone incoming (f := fun r => { r with state := .held, holdFlag := false, holdCause := some .command })
    rfl rfl (by simp)
  have held : (becomeHeld t s).states t = .held := by rw [State.states, becomeHeld, State.updTask_task_self]
  have still := work.states_eq (t := t) (fun e => by cases held.symm.trans e) fun e => by cases held.symm.trans e
  exact but.settleLast (State.states_away (still.trans held) away_held)

theorem holdTask_orderly (h : s.Orderly asked) (t : Slot) : (holdTask t s).state.Orderly asked := by
  cases state : (s.task t).state with
  | free => simpa only [holdTask, state, refuse_state] using h
  | dormant => simpa only [holdTask, state, refuse_state] using h
  | held => simpa only [holdTask, state, refuse_state] using h
  | ready =>
    simp only [holdTask, state]
    exact (h.unqueue (t := t) state).leave
      (f := fun r => { r with state := .held, holdFlag := false, holdCause := some .command }) away_held
  | selected =>
    obtain ⟨p, found, incoming⟩ := h.dispatcher.exists_portOfIncoming (t := t) state
    simp only [holdTask, state, found]
    exact holdIncoming_orderly h incoming
  | waiting =>
    simp only [holdTask, state]
    split
    · exact h
    · exact setHoldFlag_orderly h t
  | running =>
    obtain ⟨p, found, o⟩ := h.dispatcher.exists_portOfOccupant (t := t) state
    have held := holdOccupant_orderly h o
    simp only [holdTask, state, found]
    split
    case h_5 =>
      split
      · exact h
      · exact setHoldFlag_orderly h t
    case h_6 | h_7 => exact h
    all_goals exact held

theorem releaseTask_orderly (h : s.Orderly asked) (t : Slot) : (releaseTask t s).state.Orderly asked := by
  cases state : (s.task t).state with
  | free => simpa only [releaseTask, state, refuse_state] using h
  | dormant => simpa only [releaseTask, state, refuse_state] using h
  | ready => simpa only [releaseTask, state, refuse_state] using h
  | selected => simpa only [releaseTask, state, refuse_state] using h
  | held =>
    simp only [releaseTask, state]
    exact ((h.but (t := t) (State.states_away state away_held)).updTask rfl _).readyTail
  | waiting =>
    simp only [releaseTask, state]
    split
    · exact clearHoldFlag_orderly h t
    · exact h
  | running =>
    obtain ⟨p, found, o⟩ := h.dispatcher.exists_portOfOccupant (t := t) state
    simp only [releaseTask, state, found]
    split
    · next departs => exact h.departOtherwise o departs (by simp) (by simp) rfl
    · split
      · exact clearHoldFlag_orderly h t
      · exact h
    all_goals exact h

/-! ### Yield and the slice (R40, R61) -/

/-- A port without a departing occupant has its occupant for its next. -/
theorem State.DispatcherLaw.next_of_staying (h : s.DispatcherLaw) (o : (s.port p).occ.occupant = some x)
    (stays : (s.port p).occ.disposition = none ∨ (s.port p).occ.disposition = some .stay) : s.next p = some x := by
  obtain ⟨given, stay_iff⟩ := (h.fits p).disposition
  unfold State.next
  cases g : (s.port p).occ.offer with
  | none => exact o
  | some f =>
    have offered : (s.port p).occ.disposition.isSome := given.2 ⟨by rw [g]; rfl, by rw [o]; rfl⟩
    have stay : (s.port p).occ.disposition = some .stay := stays.resolve_left fun e => by rw [e] at offered; cases offered
    exact ((h.fits p).continues f g ((stay_iff f g).1 stay).1).trans o

/-- The port passes to a READY task of the occupant's own priority. -/
theorem State.Orderly.passPort (h : s.Orderly asked) (o : (s.port p).occ.occupant = some x)
    (stays : (s.port p).occ.disposition = none ∨ (s.port p).occ.disposition = some .stay)
    (peer : s.FirstEligible p (s.task x).priority f) : (offerTask p f (s.setDisposition p .readyTail)).Orderly asked := by
  have next := h.dispatcher.next_of_staying o stays
  obtain ⟨before, after, queue, eligible, -⟩ := peer
  obtain ⟨-, enabled⟩ := State.eligible_spec.1 ((eligible_iff s p f).2 eligible)
  obtain ⟨ready, priority⟩ := h.dispatcher.arranged.mem_queue.1 (show f ∈ s.queue (s.task x).priority by rw [queue]; simp)
  have none_incoming (u : Slot) : (s.setDisposition p .readyTail).isIncoming p u = false := by
    rw [setDisposition_isIncoming]
    refine Bool.eq_false_iff.2 fun i => ?_
    cases (State.next_of_isIncoming i).symm.trans next
    have running := h.dispatcher.states_occupant o
    rw [(h.dispatcher.arranged.incomings _).2 ⟨p, i⟩] at running
    cases running
  have enabled' : ((s.setDisposition p .readyTail).port p).isEnabled = true := by simpa [PortRecord.isEnabled] using enabled
  have frame : DispatchFrame s (offerTask p f (s.setDisposition p .readyTail)) :=
    (setDisposition_frame s p .readyTail (.inr enabled)).trans (offerTask_frame p f _ enabled')
  refine ⟨State.dispatcherLaw_iff.2 ⟨?_, ?_⟩, fun a => State.urgencyLaw_iff.2 fun q => ?_⟩
  · have arranged := (h.dispatcher.arranged.setDisposition p .readyTail).offerTask p ready
    rw [State.vacated_eq_self none_incoming] at arranged
    rw [offerTask_states, setDisposition_states]
    exact arranged
  · refine offerTask_fits enabled' ?_ ?_ fun q ne => setDisposition_fits_ne ne (h.dispatcher.fits q)
    · rw [setDisposition_disposition, if_pos rfl, setDisposition_occupant, o]; simp
    · rw [setDisposition_disposition, if_pos rfl]; simp
  · refine (State.urgencyLaw_iff.1 (h.urgency a) q).of_frame frame ?_ fun u r _ => ?_
    · rw [frame.urgency, offerTask_next]
      split
      · next e => rw [← e, next, State.urgency, State.urgency, priority]
      · rw [setDisposition_next]
    · rw [offerTask_states, setDisposition_states, moveTo] at r
      split at r
      · cases r
      · exact r

theorem yieldPort_orderly (h : s.Orderly asked) (o : (s.port p).occ.occupant = some x) : (yieldPort p x s).Orderly asked := by
  unfold yieldPort
  split
  · exact h
  · next f peer =>
    have first := firstPeer_eq_some.1 peer
    split
    · next settled => exact h.passPort o (.inl settled) first
    · next stay => exact h.passPort o (.inr stay) first
    · next departs =>
      have := h.departOtherwise (f := id) (d' := .readyTail) o departs (by simp) (by simp) rfl
      rwa [State.updTask_id] at this
    all_goals exact h

/-- A counted port is SETTLED (R124). -/
theorem counted_settled (h : s.counted p = true) : (s.port p).occ.offer = none := by
  unfold State.counted at h
  split at h
  · assumption
  · cases h

theorem countQuantum_orderly (h : s.Orderly asked) (p : Port) : (countQuantum p s).Orderly asked := by
  unfold countQuantum
  split
  · next counted =>
    cases o : (s.port p).occ.occupant with
    | none => exact h
    | some x =>
      have counted' : (s.updTask x fun r => { r with remaining := r.remaining - 1 }).Orderly asked := h.updTask rfl rfl rfl
      have settled : (s.port p).occ.disposition = none := by
        have given := (h.dispatcher.fits p).disposition.1
        rw [counted_settled counted] at given
        simpa using given
      simp only
      split
      · unfold sliceExpired
        split
        · next f peer =>
          exact counted'.passPort (x := x) (by rw [State.updTask_port]; exact o) (.inl (by rw [State.updTask_port]; exact settled))
            (firstPeer_eq_some.1 peer)
        · exact counted'.updTask rfl rfl rfl
      · exact counted'
  · exact h

/-! ### Affinity (R20) -/

/-- A READY task of a new affinity is placed again. -/
theorem State.Orderly.reaffine (h : s.Orderly asked) (ready : s.states t = .ready) (a : Affinity) :
    (place t (s.updTask t fun r => { r with affinity := a })).Orderly asked := by
  have states : (s.updTask t fun r => { r with affinity := a }).states = s.states := State.updTask_states_eq rfl
  have dispatcher : (s.updTask t fun r => { r with affinity := a }).DispatcherLaw := h.dispatcher.updTask rfl rfl
  have ready' : (s.updTask t fun r => { r with affinity := a }).states t = .ready := by rw [states]; exact ready
  refine ⟨place_dispatcher dispatcher ready', fun b => place_urgent dispatcher ready' fun p u r ne e => ?_⟩
  have urgency (y : Option Slot) : (s.updTask t fun r => { r with affinity := a }).urgency y = s.urgency y := by
    cases y with
    | none => rfl
    | some y =>
      rw [State.urgency, State.urgency, State.updTask_task]
      split
      · next e => rw [e]
      · rfl
  rw [urgency, urgency, State.updTask_next]
  refine State.urgencyLaw_iff.1 (h.urgency b) p u (states ▸ r) id ?_
  simpa only [State.eligible, State.updTask_port, State.updTask_task_ne _ _ (Ne.symm ne)] using e

theorem setAffinity_orderly (h : s.Orderly asked) (t : Slot) (a : Affinity) : (setAffinity t a s).state.Orderly asked := by
  have apart (outside : (s.states t).Away) : (s.updTask t fun r => { r with affinity := a }).Orderly asked :=
    h.updTask_away outside outside
  cases state : (s.task t).state with
  | free => simpa only [setAffinity, state, done_state] using apart (State.states_away state away_free)
  | dormant => simpa only [setAffinity, state, done_state] using apart (State.states_away state away_dormant)
  | waiting => simpa only [setAffinity, state, done_state] using apart (State.states_away state away_waiting)
  | held => simpa only [setAffinity, state, done_state] using apart (State.states_away state away_held)
  | running => simpa only [setAffinity, state, refuse_state] using h
  | selected => simpa only [setAffinity, state, refuse_state] using h
  | ready =>
    simp only [setAffinity, state]
    split
    · next same => exact h.updTask (f := fun r => { r with affinity := a }) rfl rfl same.symm
    · exact h.reaffine state a

/-! ### Priority (R19) -/

theorem repositionWaiter_orderly (h : s.Orderly asked) (t : Slot) : (repositionWaiter t s).Orderly asked :=
  h.congr (repositionWaiter_spec t s).1.samePlacing

/-- The occupant or the incoming of a port has a new priority. -/
theorem State.Orderly.ranked_unsettled (h : s.Orderly asked) (not_ready : s.states t ≠ .ready)
    (next : ∀ q, p ≠ q → s.next q ≠ some t) :
    (s.ranked t priority).Unsettled p asked := by
  have changes : Unsettles p t (s.port p).occ.disposition s (s.ranked t priority) :=
    ⟨State.updTask_port .., fun _ _ => State.updTask_port .., fun _ => rfl, fun _ ne => State.updTask_task_ne _ _ ne.symm,
      by rw [State.ranked, State.updTask_states_eq rfl], not_ready, next⟩
  exact changes.unsettled h (.inl rfl) (h.dispatcher.fits p).redecidable

/-- It need not be re-decided where the task is not its next, or has become no less urgent. -/
theorem State.Orderly.ranked (h : s.Orderly asked) (not_ready : s.states t ≠ .ready) (next : ∀ q, p ≠ q → s.next q ≠ some t)
    (le : s.next p = some t → priority ≤ (s.task t).priority) : (s.ranked t priority).Orderly asked :=
  (h.ranked_unsettled not_ready next).settle (by rw [State.ranked, State.updTask_port]; exact h.dispatcher.fits p) fun a =>
    State.ranked_urgentOn (State.urgencyLaw_iff.1 (h.urgency a) p) not_ready le

theorem setpriOccupant_orderly (h : s.Orderly asked) (o : (s.port p).occ.occupant = some t) :
    (setpriOccupant p t (decide ((s.task t).priority < priority)) (s.ranked t priority)).Orderly asked := by
  have not_ready : s.states t ≠ .ready := by rw [h.dispatcher.states_occupant o]; simp
  have next (q : Port) (ne : p ≠ q) := h.dispatcher.occupant_not_next o ne
  have port : (s.ranked t priority).port p = s.port p := State.updTask_port ..
  have redecided : (redecide p false (s.ranked t priority)).Orderly asked := (h.ranked_unsettled not_ready next).redecide
  unfold setpriOccupant
  rw [port]
  cases d : (s.port p).occ.disposition with
  | none =>
    simp only
    split
    · exact redecided
    · next more_urgent => exact h.ranked not_ready next fun _ => by simpa using more_urgent
  | some d' =>
    have departing (ne : d' ≠ .stay) : (s.ranked t priority).Orderly asked :=
      h.ranked not_ready next fun e => absurd e (h.dispatcher.departing_not_next o d ne)
    cases d' with
    | readyHead => exact h.departOtherwise o d (by simp) (by simp) rfl
    | readyTail => exact h.departOtherwise o d (by simp) (by simp) rfl
    | stay => exact redecided
    | wait => exact repositionWaiter_orderly (departing (by simp)) t
    | held => exact departing (by simp)
    | free => exact departing (by simp)

theorem setPriority_orderly (h : s.Orderly asked) (t : Slot) (priority : Fin 32) : (setPriority t priority s).Orderly asked := by
  have apart (outside : (s.states t).Away) : (s.ranked t priority).Orderly asked := h.updTask_away outside outside
  unfold setPriority
  simp only
  split
  · exact h
  · cases state : (s.task t).state with
    | free => exact apart (State.states_away state away_free)
    | dormant => exact apart (State.states_away state away_dormant)
    | held => exact apart (State.states_away state away_held)
    | waiting => exact repositionWaiter_orderly (apart (State.states_away state away_waiting)) t
    | ready => exact ((h.unqueue (t := t) state).updTask rfl _).readyTail
    | selected =>
      obtain ⟨p, found, incoming⟩ := h.dispatcher.exists_portOfIncoming (t := t) state
      have not_ready : s.states t ≠ .ready := by rw [State.states, state]; simp
      have next (q : Port) (ne : p ≠ q) := h.dispatcher.incoming_not_next incoming ne
      simp only [found]
      split
      · exact (h.ranked_unsettled not_ready next).redecide
      · next more_urgent => exact h.ranked not_ready next fun _ => by simpa using more_urgent
    | running =>
      obtain ⟨p, found, o⟩ := h.dispatcher.exists_portOfOccupant (t := t) state
      simp only [found]
      exact setpriOccupant_orderly h o

end

end Sys2Proof.Machine

/-! ## Doom, delete, accept, port loss and PORT.ENABLE keep the Dispatcher's laws (R14 to R16, R24, R62 to R65, R178 to R181) -/

namespace Sys2Proof.Machine

section
variable {s s' : State} {v : Slot → Prop} {asked : Prop} {p : Port} {x t : Slot} {y : Option Slot}

/-! ### Doom (R10, R15, R16) -/

/-- An occupant that departs in a SWITCH offer departs otherwise, and its port stands. -/
theorem State.Orderly.setDisposition (h : s.Orderly asked) {d d' : Disposition} (departs : (s.port p).occ.disposition = some d)
    (ne : d ≠ .stay) (ne' : d' ≠ .stay) : (s.setDisposition p d').Orderly asked where
  dispatcher := by
    refine State.dispatcherLaw_iff.2 ⟨by rw [setDisposition_states]; exact h.dispatcher.arranged.setDisposition p d', fun q => ?_⟩
    by_cases e : p = q
    · rw [← e, State.setDisposition_port, if_pos rfl]
      exact (h.dispatcher.fits p).redispose departs ne ne'
    · exact setDisposition_fits_ne e (h.dispatcher.fits q)
  urgency a := State.urgencyLaw_iff.2 fun q => (State.urgencyLaw_iff.1 (h.urgency a) q).congr (setDisposition_states ..) (by simp) (by simp)
    (setDisposition_next ..) (by simp [PortRecord.isEnabled])

/-- A doomed occupant: its port is about to be re-decided. -/
theorem doom_unsettled (h : s.Orderly asked) (o : (s.port p).occ.occupant = some t) : (doom p t s).Unsettled p asked := by
  rw [doom_eq]
  split
  · next departs =>
    have doomed : ((cancelWait t s).updTask t TaskRecord.doom).Orderly asked := (cancelWait_orderly h t).updTask rfl rfl rfl
    have freed := doomed.setDisposition (p := p) (d' := .free) (by rw [State.updTask_port, cancelWait_port]; exact departs) (by simp) (by simp)
    split
    · exact (serve_orderly freed).unsettled p
    · exact freed.unsettled p
  · exact h.depart o (.inr (.inr rfl)) (s.updTask_port t _) (fun _ => rfl) (fun _ ne => State.updTask_task_ne _ _ ne.symm)
      (by rw [State.updTask_states_eq rfl])

/-! ### Re-decision after a delete (R24) -/

/-- A SWITCH offer is written again with its incoming. -/
theorem State.Orderly.rewriteOffer (h : s.Orderly asked) {f : Offer} (hf : (s.port p).occ.offer = some f) (switch : f.kind = .switchTask)
    (enabled : (s.port p).isEnabled = true) : (writeOffer p .switchTask f.incoming s).Orderly asked := by
  have claim (u : Slot) : s.isIncoming p u = true ↔ f.incoming = some u := by simp [State.isIncoming, hf, switch]
  have frame := writeOffer_frame p .switchTask f.incoming s enabled
  obtain ⟨given, stay_iff⟩ := (h.dispatcher.fits p).disposition
  refine ⟨State.dispatcherLaw_iff.2 ⟨?_, fun q => ?_⟩, fun a => State.urgencyLaw_iff.2 fun q => ?_⟩
  · rw [writeOffer_states]
    cases y : f.incoming with
    | none =>
      have written := h.dispatcher.arranged.writeOffer_none p (k := .switchTask) (y := none) (.inr rfl)
      rwa [State.vacated_eq_self fun u => Bool.eq_false_iff.2 fun i => by rw [claim, y] at i; cases i] at written
    | some u =>
      have incoming := (claim u).2 y
      have vacated := State.Arranged.vacated_eq (place := s.states) incoming
      have written := h.dispatcher.arranged.writeOffer_some p (t := u) (by rw [vacated, moveTo_self]; exact away_held)
      rwa [vacated, moveTo_moveTo, moveTo_eq_self ((h.dispatcher.arranged.incomings u).2 ⟨p, incoming⟩)] at written
  · by_cases e : p = q
    · subst e
      refine writeOffer_switch_fits enabled (by rw [given, hf]; simp) fun stay => ?_
      have continues := ((stay_iff f hf).1 stay).1
      rw [switch] at continues
      cases continues
    · exact writeOffer_port_ne e (h.dispatcher.fits q)
  · refine (State.urgencyLaw_iff.1 (h.urgency a) q).of_frame frame (le_of_eq ?_) fun u r _ => by rwa [writeOffer_states] at r
    rw [frame.urgency, writeOffer_next]
    split
    · next e => subst e; rw [State.next, hf]
    · rfl

/-- A port with a SWITCH offer fits before its re-decision. -/
theorem Occupancy.Redecidable.dispositionFits {o : Occupancy} (h : o.Redecidable) {f : Offer} (hf : o.offer = some f)
    (switch : f.kind = .switchTask) : o.DispositionFits := by
  cases occupant : o.occupant with
  | none =>
    have none_given := h.idle occupant
    exact ⟨by simp [none_given, occupant], fun g _ => by simp [none_given, occupant]⟩
  | some x =>
    obtain ⟨given, not_stay⟩ := h.switching f hf switch (by rw [occupant]; simp)
    refine ⟨by simp [hf, occupant, Option.isSome_iff_ne_none, given], fun g hg => iff_of_false not_stay fun k => ?_⟩
    cases hg.symm.trans hf
    rw [switch] at k
    cases k.1

theorem redecideDeleted_orderly (h : s.Unsettled p asked) : (redecideDeleted p s).Orderly asked := by
  unfold redecideDeleted
  cases hf : (s.port p).occ.offer with
  | none => exact h.redecide
  | some f =>
    simp only
    split
    · next c =>
      obtain ⟨enabled, switch, urgent⟩ := c
      have fits : (s.port p).Fits :=
        ⟨h.redeciding.redecidable.dispositionFits hf switch, h.redeciding.quiet, h.redeciding.continues⟩
      refine (h.settle fits fun _ u ready _ e => ?_).rewriteOffer hf switch enabled
      rw [State.next, hf]
      exact urgent.trans (h.redeciding.arranged.selection_urgent ready e)
    · exact h.redecide

/-! ### TASK.DELETE (R14, R15) -/

theorem nextGeneration_orderly (h : s.Orderly asked) (t : Slot) : (nextGeneration t s).Orderly asked := h.updTask rfl rfl rfl

theorem deleteTask_orderly (h : s.Orderly asked) (t : Slot) : (deleteTask t s).Orderly asked := by
  have next := nextGeneration_orderly h t
  have states : (nextGeneration t s).states = s.states := State.updTask_states_eq rfl
  have outside (away : (s.states t).Away) : ((nextGeneration t s).states t).Away := by rw [states]; exact away
  cases state : (s.task t).state with
  | free => simpa only [deleteTask, state] using h
  | dormant =>
    simp only [deleteTask, state]
    exact (next.but (outside (State.states_away state away_dormant))).retire _
  | held =>
    simp only [deleteTask, state]
    exact (next.but (outside (State.states_away state away_held))).retire _
  | ready =>
    simp only [deleteTask, state]
    exact (next.unqueue (by rw [states]; exact state)).retire _
  | selected =>
    obtain ⟨p, found, incoming⟩ := h.dispatcher.exists_portOfIncoming (t := t) state
    simp only [deleteTask, state, found]
    exact (h.gone incoming (f := fun r => { r with generation := r.generation + 1 }) rfl rfl (by simp [state])).1.retire _
  | waiting =>
    simp only [deleteTask, state]
    refine ((cancelWait_orderly next t).but ?_).retire _
    rw [cancelWait_states]
    exact outside (State.states_away state away_waiting)
  | running =>
    obtain ⟨p, found, o⟩ := h.dispatcher.exists_portOfOccupant (t := t) state
    simp only [deleteTask, state, found]
    exact redecideDeleted_orderly (doom_unsettled h o)

/-! ### Accept (R62 to R65) -/

/-- A vacated port leaves the tasks that held it nowhere, but for the one that occupies it now. -/
theorem Vacates.orderlyBut (w : Vacates p y s s') (h : s.Orderly asked) (quiet : (s'.port p).QuietWhenDisabled)
    (next : (s'.port p).isEnabled = true → s.next p = y) (enabled : (s'.port p).isEnabled = true → (s.port p).isEnabled = true) :
    s'.OrderlyBut (fun u => s.Holds p u ∧ y ≠ some u) asked where
  arranged := by
    refine ⟨_, w.arranged h.dispatcher, fun u hu => ?_, fun u hu => ?_⟩
    · rw [State.freed_of_holds hu.1 hu.2]; exact away_held
    · by_cases e : y = some u
      · rw [e, State.freed_self, State.states, w.task, if_pos e]; rfl
      · have not_held : ¬s.Holds p u := fun k => hu ⟨k, e⟩
        rw [State.freed_of_not_holds not_held e, w.states_of_not_holds not_held]
  fits := w.fits h.dispatcher quiet
  urgency a q u r hu e := by
    have ne : y ≠ some u := fun e => by rw [State.states, w.task, if_pos e] at r; cases r
    have not_held : ¬s.Holds p u := fun k => hu ⟨k, ne⟩
    obtain ⟨permits, on⟩ := State.eligible_spec.1 e
    have next' : s'.next q = s.next q := by
      by_cases e' : p = q
      · subst e'
        rw [next on, State.next, w.offer, w.occupant]
      · exact State.next_congr (w.others q e')
    rw [State.urgency_next next' fun y _ => w.priority y, State.urgency, w.priority]
    refine State.urgencyLaw_iff.1 (h.urgency a) q u (by rwa [w.states_of_not_holds not_held] at r) id
      (State.eligible_spec.2 ⟨w.affinity u ▸ permits, ?_⟩)
    by_cases e' : p = q
    · subst e'; exact enabled on
    · rwa [w.others q e'] at on

/-- The accepted port, with the tasks that held it nowhere but for its new occupant. -/
theorem State.Orderly.accepted (h : s.Orderly asked) {f : Offer} (hf : (s.port p).occ.offer = some f) :
    (s.accepted p f.incoming).OrderlyBut (fun u => s.Holds p u ∧ f.incoming ≠ some u) asked := by
  have here := (s.accepted_port p f.incoming p).trans (if_pos rfl)
  refine (h.dispatcher.accepted_vacates hf).orderlyBut h ?_ (fun _ => by rw [State.next, hf]) fun on => by rw [here] at on; exact on
  rw [here]
  exact fun disabled => absurd disabled ((h.dispatcher.fits p).quiet.live hf)

/-- The task that leaves the port becomes what its disposition says (R64). -/
theorem applyDisposition_orderly (h : s.OrderlyBut (· = x) asked) {d : Disposition} (departs : d ≠ .stay) :
    (applyDisposition x (some d) s).Orderly asked := by
  cases d with
  | readyHead => exact h.readyHead
  | readyTail => exact h.readyTail
  | wait => exact h.leave (f := fun r => { r with state := .waiting }) away_waiting
  | held => exact h.leave (f := fun r => { r with state := .held, holdCause := some .command }) away_held
  | free => exact h.retire false
  | stay => exact absurd rfl departs

theorem acceptSwitch_orderly (h : s.Orderly asked) {f : Offer} (hf : (s.port p).occ.offer = some f) (switch : f.kind = .switchTask) :
    (acceptSwitch p f.incoming s).Orderly asked := by
  have accepted := h.accepted hf
  have claim (u : Slot) : s.isIncoming p u = true ↔ f.incoming = some u := by simp [State.isIncoming, hf, switch]
  rw [acceptSwitch_eq]
  cases o : (s.port p).occ.occupant with
  | none =>
    refine accepted.orderly fun u ⟨k, ne⟩ => k.elim (fun o' => ?_) fun i => ne ((claim u).1 i)
    rw [o] at o'; cases o'
  | some x =>
    have ne : f.incoming ≠ some x := fun e => by
      have running := h.dispatcher.states_occupant o
      rw [(h.dispatcher.arranged.incomings x).2 ⟨p, (claim x).2 e⟩] at running
      cases running
    have only : (fun u => s.Holds p u ∧ f.incoming ≠ some u) = (· = x) := by
      funext u
      refine propext ⟨fun ⟨k, no⟩ => k.elim (fun e => Option.some.inj (e.symm.trans o)) fun i => absurd ((claim u).1 i) no, ?_⟩
      rintro rfl
      exact ⟨.inl o, ne⟩
    rw [only] at accepted
    obtain ⟨given, stay_iff⟩ := (h.dispatcher.fits p).disposition
    obtain ⟨d, hd⟩ := Option.isSome_iff_exists.1 (given.2 ⟨by rw [hf]; rfl, by rw [o]; rfl⟩)
    simp only
    rw [hd]
    refine applyDisposition_orderly accepted fun stay => ?_
    have continues := ((stay_iff f hf).1 (stay ▸ hd)).1
    rw [switch] at continues
    cases continues

theorem acceptContinue_orderly (h : s.Orderly asked) {f : Offer} (hf : (s.port p).occ.offer = some f) (k : f.kind = .continueTask) :
    (acceptContinue p s).Orderly asked := by
  have same := (h.dispatcher.fits p).continues f hf k
  rw [acceptContinue_eq, ← same]
  refine (h.accepted hf).orderly fun u ⟨k', ne⟩ => k'.elim (fun e => ne (same.trans e)) fun i => ?_
  simp [State.isIncoming, hf, k] at i

theorem setAcceptStatus_orderly (h : s.Orderly asked) (p : Port) (a : AcceptStatus) : (setAcceptStatus p a s).Orderly asked :=
  h.updPort (f := fun r => { r with occ := { r.occ with acceptStatus := a } }) ⟨rfl, rfl, rfl, rfl⟩

theorem takeAccept_orderly (h : s.Orderly asked) (p : Port) (value : Byte) : (takeAccept p value s).Orderly asked := by
  unfold takeAccept
  split
  · exact setAcceptStatus_orderly h p _
  · cases hf : (s.port p).occ.offer with
    | none => exact setAcceptStatus_orderly h p _
    | some f =>
      simp only
      split
      · exact setAcceptStatus_orderly h p _
      · cases k : f.kind with
        | switchTask => exact acceptSwitch_orderly h hf k
        | continueTask => exact acceptContinue_orderly h hf k

/-! ### Port loss (R180, R181) -/

theorem raise_orderly (h : s.Orderly asked) (p : Port) (c : Cause) : (s.raise p c).Orderly asked :=
  h.updPort (PortRecord.raise_sameOccupancy _ c)

/-- The incoming of the removed offer, if there is one, is all that is left to be placed (R181). -/
theorem endLoss_orderly {q : Port} {on must : Bool} {offer : Option Offer}
    (h : s.OrderlyBut (fun u => removedIncoming offer = some u) asked) : (endLoss q on offer must s).Orderly asked := by
  have raised : (if on then s.raise q .peerDown else s).OrderlyBut (fun u => removedIncoming offer = some u) asked := by
    split
    · exact h.congr (.updPort (PortRecord.raise_sameOccupancy _ _))
    · exact h
  have displaced : (displace (removedIncoming offer) (if on then s.raise q .peerDown else s)).Orderly asked := by
    cases y : removedIncoming offer with
    | none => exact raised.orderly fun u e => by rw [y] at e; cases e
    | some t =>
      have only : (fun u => removedIncoming offer = some u) = (· = t) := by
        funext u; rw [y, Option.some.injEq]; exact propext eq_comm
      exact (only ▸ raised).readyHead
  rw [endLoss_eq]
  split
  · exact serve_orderly displaced
  · exact displaced

/-- After the port's own records both its occupant and its incoming are nowhere. -/
theorem shutPort_orderlyBut (h : s.Orderly asked) (p : Port) : (shutPort p s).OrderlyBut (s.Holds p) asked := by
  have here := (shutPort_port p s p).trans (if_pos rfl)
  have off : ((shutPort p s).port p).isEnabled ≠ true := by rw [here]; simp [PortRecord.isEnabled]
  have shut := (shutPort_vacates p s).orderlyBut h (by rw [here]; exact fun _ => ⟨rfl, rfl, rfl⟩) (fun on => absurd on off)
    fun on => absurd on off
  simpa only [ne_eq, reduceCtorEq, not_false_eq_true, and_true] using shut

/-- A lost occupant is HELD, with its wait cancelled first. -/
theorem loseOccupant_orderlyBut {w : Slot → Prop} (h : s.OrderlyBut v asked) (hv : v x) (out : ∀ u, w u ↔ v u ∧ u ≠ x)
    (d : Option Disposition) : (loseOccupant x d s).OrderlyBut w asked := by
  have held {s : State} (h : s.OrderlyBut v asked) {g : TaskRecord → TaskRecord} (state : (g (s.task x)).state = .held) :
      (s.updTask x g).OrderlyBut w asked :=
    (h.updTask hv g).settle out (by rw [State.states, State.updTask_task_self, state]; exact away_held)
  by_cases departs : d = some .wait
  · rw [departs, loseOccupant_wait]
    exact held ((h.congr (leaveWait_samePlacing x s)).updTask hv _) rfl
  · rw [loseOccupant_other _ _ departs]
    exact held h rfl

theorem losePortWhole_orderly (h : s.Orderly asked) (p : Port) : (losePortWhole p s).Orderly asked := by
  have shut := shutPort_orderlyBut h p
  have removed : (fun u => removedIncoming (s.port p).occ.offer = some u) = fun u => s.isIncoming p u = true :=
    funext fun u => propext removedIncoming_iff
  rw [losePortWhole_eq]
  cases o : (s.port p).occ.occupant with
  | none =>
    have only : s.Holds p = fun u => s.isIncoming p u = true := by
      funext u
      simp [State.Holds, o]
    exact endLoss_orderly (by rw [removed, ← only]; exact shut)
  | some x =>
    have held : s.Holds p x := .inl o
    have out (u : Slot) : s.isIncoming p u = true ↔ s.Holds p u ∧ u ≠ x := by
      refine ⟨fun i => ⟨.inr i, ?_⟩, fun ⟨k, ne⟩ => k.resolve_left fun o' => ne (Option.some.inj (o'.symm.trans o))⟩
      rintro rfl
      have running := h.dispatcher.states_occupant o
      rw [(h.dispatcher.arranged.incomings u).2 ⟨p, i⟩] at running
      cases running
    simp only
    split
    · exact endLoss_orderly (by rw [removed]; exact shut.freeSlot held out)
    · exact endLoss_orderly (by rw [removed]; exact loseOccupant_orderlyBut shut held out _)

/-! ### PORT.ENABLE (R178) -/

/-- A port that becomes ENABLED is about to be re-decided: its own urgency is not yet kept. -/
theorem enablePort_orderly (h : s.Orderly asked) (p : Port) : (enablePort p s).Orderly asked := by
  have port (q : Port) : (s.updPort p fun r => { r with lifecycle := .enabled }).port q =
      if p = q then { s.port p with lifecycle := .enabled } else s.port q := State.updPort_port ..
  have here := (port p).trans (if_pos rfl)
  have there (q : Port) (ne : p ≠ q) := (port q).trans (if_neg ne)
  have occ (q : Port) : ((s.updPort p fun r => { r with lifecycle := .enabled }).port q).occ = (s.port q).occ := by
    rw [port]
    split
    · next e => rw [e]
    · rfl
  have states : (s.updPort p fun r => { r with lifecycle := .enabled }).states = s.states := by
    funext u; simp [State.states]
  have unsettled : (s.updPort p fun r => { r with lifecycle := .enabled }).Unsettled p asked := by
    refine ⟨⟨?_, fun _ => .inl rfl, fun q ne => ?_, ?_, ?_, ?_⟩, fun a q ne => ?_⟩
    · rw [states]
      exact h.dispatcher.arranged.reprioritised (by simp) (by simp) (fun q => by rw [occ]) fun q => by rw [occ]
    · rw [there q ne]; exact h.dispatcher.fits q
    · rw [here]; exact fun e => by cases e
    · rw [occ]; exact (h.dispatcher.fits p).continues
    · rw [occ]; exact (h.dispatcher.fits p).redecidable
    · exact (State.urgencyLaw_iff.1 (h.urgency a) q).congr states (by simp) (by simp) (State.next_congr (there q ne)) (by rw [there q ne])
  exact raise_orderly unsettled.redecide _ _

theorem deviceReset_orderly (s : State) : (deviceReset s).Orderly asked :=
  ⟨deviceReset_dispatcher s, fun _ => State.urgencyLaw_iff.2 fun p t r => by rw [deviceReset_states] at r; cases r⟩

end

end Sys2Proof.Machine

/-! ## Exchanges, lines, pages and time keep the Dispatcher's laws -/

namespace Sys2Proof.Machine

section
variable {s s' : State} {asked : Prop} {p : Port} {x t : Slot} {y : Fin 16}

/-! ### Exchanges (R74, R75, R85 to R89, R101, R102) -/

theorem handMessage_orderly (h : s.Orderly asked) (y : Fin 16) (t : Slot) (m : Message) : (handMessage y t m s).Orderly asked :=
  endWait_orderly (h.updMailbox y _) t _

theorem queueMessage_orderly (h : s.Orderly asked) (y : Fin 16) (m : Message) : (queueMessage y m s).Orderly asked :=
  h.updMailbox y _

theorem deliverOrQueue_orderly (h : s.Orderly asked) (y : Fin 16) (m : Message) : (deliverOrQueue y m s).Orderly asked := by
  unfold deliverOrQueue
  split
  · exact handMessage_orderly h _ _ _
  · exact queueMessage_orderly h _ _

theorem refillRounds_orderly (n : Nat) (y : Fin 16) : ∀ s : State, s.Orderly asked → (refillRounds n y s).Orderly asked := by
  induction n with
  | zero => exact fun _ h => h
  | succ n ih =>
    intro s h
    unfold refillRounds
    split
    · exact h
    · next b _ =>
      split
      · split
        · exact h
        · next t rest _ =>
          have sent : (endWait t (.ok .none) (s.updMailbox y fun b => { b with senders := rest })).Orderly asked :=
            endWait_orderly (h.updMailbox y _) t _
          simp only
          refine ih _ ?_
          split
          · exact deliverOrQueue_orderly sent _ _
          · exact sent
      · exact h

theorem refill_orderly (h : s.Orderly asked) (y : Fin 16) : (refill y s).Orderly asked := refillRounds_orderly _ y s h

/-- The caller, if there is one, is the occupant of its port. -/
theorem waitOr_orderly (h : s.Orderly asked) (refusal : Result) {caller : Option Slot}
    (occupies : ∀ x, caller = some x → (s.port p).occ.occupant = some x) (k : WaitKind) (d : Option TickCount) :
    (waitOr refusal p caller k d s).state.Orderly asked := by
  cases caller with
  | none => exact h
  | some x => exact beginWait_orderly h (occupies x rfl) k d

theorem openExchange_orderly (h : s.Orderly asked) (e : ExchangeState) (cells : Nat) : (openExchange e cells s).state.Orderly asked := by
  unfold openExchange
  split
  · exact h
  · next y _ =>
    split
    · exact h
    · exact h.congr (.of_fields rfl rfl rfl rfl)

theorem closeExchange_orderly (h : s.Orderly asked) (y : Fin 16) : (closeExchange y s).state.Orderly asked :=
  (endWaits_orderly .closed (s.exchange y).state.waiters s h).congr
    (.of_fields rfl rfl rfl rfl)

theorem sendMessage_orderly (h : s.Orderly asked) {caller : Option Slot}
    (occupies : ∀ x, caller = some x → (s.port p).occ.occupant = some x) (d : Option TickCount) (id : Byte) (y : Fin 16) (m : Message) :
    (sendMessage p caller d id y m s).state.Orderly asked := by
  unfold sendMessage
  split
  · exact h
  · split
    · exact handMessage_orderly h _ _ _
    · split
      · exact queueMessage_orderly h _ _
      · exact waitOr_orderly h _ occupies _ _

theorem receiveMessage_orderly (h : s.Orderly asked) {caller : Option Slot}
    (occupies : ∀ x, caller = some x → (s.port p).occ.occupant = some x) (d : Option TickCount) (id low high : Byte) (y : Fin 16) :
    (receiveMessage p caller d id low high y s).state.Orderly asked := by
  unfold receiveMessage
  split
  · exact h
  · split
    · exact refill_orderly (h.updMailbox y _) y
    · exact waitOr_orderly h _ occupies _ _

theorem acquireUnit_orderly (h : s.Orderly asked) {caller : Option Slot}
    (occupies : ∀ x, caller = some x → (s.port p).occ.occupant = some x) (d : Option TickCount) (id : Byte) (y : Fin 16) :
    (acquireUnit p caller d id y s).state.Orderly asked := by
  unfold acquireUnit
  split
  · exact h
  · exact h
  · split
    · exact h.updCounter y _
    · exact waitOr_orderly h _ occupies _ _

theorem releaseUnit_orderly (h : s.Orderly asked) (y : Fin 16) : (releaseUnit y s).state.Orderly asked := by
  unfold releaseUnit
  split
  · exact h
  · exact h
  · split
    · exact endWait_orderly (h.updCounter y _) _ _
    · split
      · exact h.updCounter y _
      · exact h

/-! ### Lines (R131 to R134) -/

theorem takeLineEvent_orderly (h : s.Orderly asked) (l : Line) : (takeLineEvent l s).Orderly asked := by
  unfold takeLineEvent
  simp only
  split
  · exact h.updLine l _
  · split
    · exact endWait_orderly (h.updLine l _) _ _
    · exact endWaits_orderly _ _ _ (h.updLine l _)

theorem recogniseEdge_orderly (h : s.Orderly asked) (l : Line) (e : Edge) : (recogniseEdge l e s).Orderly asked := by
  unfold recogniseEdge
  simp only
  split
  · exact takeLineEvent_orderly (h.updLine l _) l
  · exact h.updLine l _

theorem recogniseEdges_orderly (es : List (Line × Edge)) : ∀ s : State, s.Orderly asked →
    (es.foldl (fun s e => recogniseEdge e.1 e.2 s) s).Orderly asked := by
  induction es with
  | nil => exact fun _ h => h
  | cons e es ih => exact fun s h => ih _ (recogniseEdge_orderly h e.1 e.2)

/-- The model's counter of free values is no record of the part. -/
theorem State.Orderly.draw (h : s.Orderly asked) (n : Nat) : { s with draws := n }.Orderly asked :=
  h.congr (.of_fields rfl rfl rfl rfl)

theorem sampleLines_orderly (h : s.Orderly asked) (levels : Byte) : (sampleLines levels s).Orderly asked := by
  have quiet : (sampleQuietLines levels s).Orderly asked :=
    h.congr (.of_fields rfl rfl rfl rfl)
  unfold sampleLines
  simp only
  split
  · exact quiet
  · exact recogniseEdge_orderly quiet _ _
  · exact recogniseEdges_orderly _ _ (quiet.draw _)

/-! ### Time (R112, R118 to R121, R124, R125) -/

theorem State.Orderly.setTime (h : s.Orderly asked) (u : TickUnit) : { s with time := u }.Orderly asked :=
  h.congr (.of_fields rfl rfl rfl rfl)

theorem expire_orderly (h : s.Orderly asked) (t : Slot) : (expire t s).Orderly asked := by
  have ended := endWait_orderly h t (expiryDelivery (s.task t).wait)
  unfold expire
  split
  · simp only
    split
    · exact serve_orderly ended
    · exact ended
  · exact h

theorem expireAll_orderly (due : List Slot) : ∀ s : State, s.Orderly asked → (due.foldl (fun s t => expire t s) s).Orderly asked := by
  induction due with
  | nil => exact fun _ h => h
  | cons t due ih => exact fun s h => ih _ (expire_orderly h t)

theorem countQuanta_orderly (h : s.Orderly asked) : (countQuanta s).Orderly asked := by
  unfold countQuanta
  simp only
  split
  · split
    · exact countQuantum_orderly (countQuantum_orderly (h.draw _) .B) .A
    · exact countQuantum_orderly (countQuantum_orderly (h.draw _) .A) .B
  · exact countQuantum_orderly (countQuantum_orderly h .A) .B

theorem tickWhole_orderly (h : s.Orderly asked) : (tickWhole s).Orderly asked :=
  countQuanta_orderly (expireAll_orderly _ _ (h.setTime _))

theorem clkPeriod_orderly (h : s.Orderly asked) : (clkPeriod s).Orderly asked := by
  unfold clkPeriod
  split
  · exact h
  · split
    · exact h.setTime _
    · split
      · exact h.setTime _
      · exact tickWhole_orderly h

/-! ### Pages (R148, R153, R155) -/

theorem allocate_orderly (h : s.Orderly asked) (o : (s.port p).occ.occupant = some x) (n : Nat) (option : Byte) (d : Option TickCount) :
    (allocate p x n option d s).state.Orderly asked := by
  unfold allocate
  split
  · exact h.updPool _
  · split
    · exact h
    · exact beginWait_orderly h o _ _

theorem removeAndServe_orderly (h : s.Orderly asked) (e : Fin 64) : (removeAndServe e s).1.Orderly asked :=
  serveCount_orderly (h.updPool _)

end

end Sys2Proof.Machine

/-! ## Every row keeps the Dispatcher's laws (R168, R169) -/

namespace Sys2Proof.Machine

/-- What comes of a row keeps the Dispatcher's laws. -/
def Ordered (asked : Prop) (o : Host.Outcome State Fault Refusal) : Prop := ∀ u, o = .next u → u.Orderly asked

section
variable {s : State} {asked : Prop} {p : Port} {x t : Slot}

theorem ordered_next (h : s.Orderly asked) : Ordered asked (.next s) := fun u e => by cases e; exact h

/-! ### The checks and the completion (R165, R169) -/

theorem complete_orderly {r : Reply} (h : r.state.Orderly asked) (p : Port) : (complete p r).Orderly asked :=
  raise_orderly (h.updPort (p := p)
    (f := fun k => { k with unit := { k.unit with command := none, res := r.result.code, results := r.bytes } })
    ⟨rfl, rfl, rfl, rfl⟩) p .done

theorem done_orderly (h : s.Orderly asked) (bytes : List Byte) : (done bytes s).state.Orderly asked := h

theorem take_orderly {c : CommandCode} {k : List Byte → State → State} (h : s.Orderly asked)
    (keeps : ∀ params, (k params s).Orderly asked) : Ordered asked (take p c k s) := by
  unfold take
  split
  · exact ordered_next h
  · split
    · exact ordered_next (keeps _)
    · exact ordered_next h

theorem command_orderly {c : CommandCode} {body : List Byte → State → Reply} (h : s.Orderly asked)
    (keeps : ∀ params, (body params s).state.Orderly asked) : Ordered asked (command p c body s) :=
  take_orderly h fun params => complete_orderly (keeps params) p

theorem withCaller_orderly (h : s.Orderly asked) {k : Slot → Reply}
    (keeps : ∀ x, (s.port p).occ.occupant = some x → (k x).state.Orderly asked) : (withCaller p s k).state.Orderly asked := by
  unfold withCaller
  cases e : s.callerOf p with
  | error r => exact h
  | ok x => exact keeps x (isCaller_of_callerOf e).occupant

theorem withWaiter_orderly (h : s.Orderly asked) (option : Byte) {k : Option Slot → Reply}
    (keeps : ∀ caller, (∀ x, caller = some x → (s.port p).occ.occupant = some x) → (k caller).state.Orderly asked) :
    (withWaiter p option s k).state.Orderly asked := by
  unfold withWaiter
  split
  · exact withCaller_orderly h fun x o => keeps _ fun y e => Option.some.inj e ▸ o
  · exact keeps none fun y e => by cases e

theorem withTask_orderly (h : s.Orderly asked) (v : Half) {k : Slot → Reply} (keeps : ∀ t, (k t).state.Orderly asked) :
    (withTask v s k).state.Orderly asked := by
  unfold withTask
  split
  · exact h
  · exact keeps _

theorem withExchange_orderly (h : s.Orderly asked) (id : Byte) {k : Fin 16 → Reply} (keeps : ∀ y, (k y).state.Orderly asked) :
    (withExchange id s k).state.Orderly asked := by
  unfold withExchange
  split
  · exact h
  · exact keeps _

/-! ### The task commands (R12 to R23, R40, R122) -/

/-- A FREE slot becomes a DORMANT task. -/
theorem State.Orderly.create (h : s.Orderly asked) (found : s.lowestFree = some t) {g : TaskRecord → TaskRecord}
    (state : (g (s.task t)).state = .dormant) : (s.updTask t g).Orderly asked :=
  h.updTask_away (State.states_away (lowestFree_free found) away_free) (by rw [state]; exact away_dormant)

theorem execTaskCreate_orderly (h : s.Orderly asked) (p : Port) : Ordered asked (execTaskCreate p s) := by
  refine command_orderly h fun params => ?_
  split
  · split
    · split
      · exact h
      · next t found => exact done_orderly (h.create found rfl) _
    · exact h
  · exact h

theorem execTaskStart_orderly (h : s.Orderly asked) (p : Port) : Ordered asked (execTaskStart p s) := by
  refine command_orderly h fun params => ?_
  split
  · refine withTask_orderly h _ fun t => ?_
    split
    · next dormant => exact (h.but (State.states_away dormant away_dormant)).readyTail
    · exact h
  · exact h

theorem execTaskDelete_orderly (h : s.Orderly asked) (p : Port) : Ordered asked (execTaskDelete p s) := by
  refine command_orderly h fun params => ?_
  split
  · exact withTask_orderly h _ fun t => deleteTask_orderly h t
  · exact h

theorem execTaskExit_orderly (h : s.Orderly asked) (p : Port) : Ordered asked (execTaskExit p s) := by
  refine command_orderly h fun params => ?_
  split
  · exact withCaller_orderly h fun x o => (doom_unsettled h o).redecide
  · exact h

theorem execTaskHold_orderly (h : s.Orderly asked) (p : Port) : Ordered asked (execTaskHold p s) := by
  refine command_orderly h fun params => ?_
  split
  · exact withTask_orderly h _ fun t => holdTask_orderly h t
  · exact h

theorem execTaskRelease_orderly (h : s.Orderly asked) (p : Port) : Ordered asked (execTaskRelease p s) := by
  refine command_orderly h fun params => ?_
  split
  · exact withTask_orderly h _ fun t => releaseTask_orderly h t
  · exact h

theorem execTaskSetpri_orderly (h : s.Orderly asked) (p : Port) : Ordered asked (execTaskSetpri p s) := by
  refine command_orderly h fun params => ?_
  split
  · split
    · exact h
    · exact withTask_orderly h _ fun t => setPriority_orderly h t _
  · exact h

theorem execTaskSetaff_orderly (h : s.Orderly asked) (p : Port) : Ordered asked (execTaskSetaff p s) := by
  refine command_orderly h fun params => ?_
  split
  · split
    · exact h
    · exact withTask_orderly h _ fun t => setAffinity_orderly h t _
  · exact h

theorem execTaskSetctx_orderly (h : s.Orderly asked) (p : Port) : Ordered asked (execTaskSetctx p s) := by
  refine command_orderly h fun params => ?_
  split
  · refine withTask_orderly h _ fun t => ?_
    split
    · exact done_orderly (h.updTask rfl rfl rfl) _
    · exact h
  · exact h

theorem execTaskQuery_orderly (h : s.Orderly asked) (p : Port) : Ordered asked (execTaskQuery p s) := by
  refine command_orderly h fun params => ?_
  split
  · exact withTask_orderly h _ fun t => h
  · exact h

theorem execTaskSelf_orderly (h : s.Orderly asked) (p : Port) : Ordered asked (execTaskSelf p s) := by
  refine command_orderly h fun params => ?_
  split
  · exact withCaller_orderly h fun _ _ => h
  · exact h

theorem execTaskYield_orderly (h : s.Orderly asked) (p : Port) : Ordered asked (execTaskYield p s) := by
  refine command_orderly h fun params => ?_
  split
  · exact withCaller_orderly h fun x o => yieldPort_orderly h o
  · exact h

theorem execTaskDelay_orderly (h : s.Orderly asked) (p : Port) : Ordered asked (execTaskDelay p s) := by
  refine command_orderly h fun params => ?_
  split
  · refine withCaller_orderly h fun x o => ?_
    split
    · exact h
    · exact beginWait_orderly h o _ _
  · exact h

/-! ### The exchange commands (R74, R75, R77, R84 to R88, R98 to R102, R107, R108) -/

theorem execXchOpen_orderly (h : s.Orderly asked) (p : Port) : Ordered asked (execXchOpen p s) := by
  refine command_orderly h fun params => ?_
  split
  · split
    · exact h
    · split
      · split
        · exact h
        · exact openExchange_orderly h _ _
      · split
        · split
          · exact h
          · exact openExchange_orderly h _ _
        · exact h
  · exact h

theorem execXchClose_orderly (h : s.Orderly asked) (p : Port) : Ordered asked (execXchClose p s) := by
  refine command_orderly h fun params => ?_
  split
  · exact withExchange_orderly h _ fun y => closeExchange_orderly h y
  · exact h

theorem execXchQuery_orderly (h : s.Orderly asked) (p : Port) : Ordered asked (execXchQuery p s) := by
  refine command_orderly h fun params => ?_
  split
  · exact withExchange_orderly h _ fun _ => h
  · exact h

theorem execMsgSend_orderly (h : s.Orderly asked) (p : Port) : Ordered asked (execMsgSend p s) := by
  refine command_orderly h fun params => ?_
  split
  · refine withWaiter_orderly h _ fun caller occupies => ?_
    split
    · exact h
    · exact withExchange_orderly h _ fun y => sendMessage_orderly h occupies _ _ y _
  · exact h

theorem execMsgRecv_orderly (h : s.Orderly asked) (p : Port) : Ordered asked (execMsgRecv p s) := by
  refine command_orderly h fun params => ?_
  split
  · refine withWaiter_orderly h _ fun caller occupies => ?_
    split
    · exact h
    · exact withExchange_orderly h _ fun y => receiveMessage_orderly h occupies _ _ _ _ y
  · exact h

theorem execCntAcquire_orderly (h : s.Orderly asked) (p : Port) : Ordered asked (execCntAcquire p s) := by
  refine command_orderly h fun params => ?_
  split
  · refine withWaiter_orderly h _ fun caller occupies => ?_
    split
    · exact h
    · exact withExchange_orderly h _ fun y => acquireUnit_orderly h occupies _ _ y
  · exact h

theorem execCntRelease_orderly (h : s.Orderly asked) (p : Port) : Ordered asked (execCntRelease p s) := by
  refine command_orderly h fun params => ?_
  split
  · exact withExchange_orderly h _ fun y => releaseUnit_orderly h y
  · exact h

/-! ### The event lines (R136 to R140) -/

theorem execEvtConfig_orderly (h : s.Orderly asked) (p : Port) : Ordered asked (execEvtConfig p s) := by
  refine command_orderly h fun params => ?_
  split
  · split
    · exact done_orderly (h.updLine _ _) _
    · exact h
  · exact h

theorem execEvtWait_orderly (h : s.Orderly asked) (p : Port) : Ordered asked (execEvtWait p s) := by
  refine command_orderly h fun params => ?_
  split
  · refine withWaiter_orderly h _ fun caller occupies => ?_
    split
    · exact h
    · split
      · exact h
      · split
        · exact done_orderly (h.updLine _ _) _
        · exact waitOr_orderly h _ occupies _ _
  · exact h

theorem execEvtQuery_orderly (h : s.Orderly asked) (p : Port) : Ordered asked (execEvtQuery p s) := by
  refine command_orderly h fun params => ?_
  split
  · split
    · exact h
    · next l _ =>
      refine done_orderly ?_ _
      split
      · exact h.updLine l _
      · exact (h.updLine l _).draw _
  · exact h

/-! ### The page commands (R146 to R157) and time (R113, R114) -/

theorem execPageAlloc_orderly (h : s.Orderly asked) (p : Port) : Ordered asked (execPageAlloc p s) := by
  refine command_orderly h fun params => ?_
  split
  · refine withCaller_orderly h fun x o => ?_
    split
    · exact h
    · exact allocate_orderly h o _ _ _
  · exact h

theorem execPageFree_orderly (h : s.Orderly asked) (p : Port) : Ordered asked (execPageFree p s) := by
  refine command_orderly h fun params => ?_
  split
  · refine withCaller_orderly h fun x _ => ?_
    split
    · exact h
    · split
      · exact h
      · exact removeAndServe_orderly h _
  · exact h

theorem execPageGive_orderly (h : s.Orderly asked) (p : Port) : Ordered asked (execPageGive p s) := by
  refine command_orderly h fun params => ?_
  split
  · refine withCaller_orderly h fun x _ => ?_
    split
    · exact h
    · refine withTask_orderly h _ fun t => ?_
      split
      · exact h
      · exact done_orderly (h.updPool _) _
  · exact h

theorem execPageQuery_orderly (h : s.Orderly asked) (p : Port) : Ordered asked (execPageQuery p s) := by
  refine command_orderly h fun params => ?_
  split
  · split
    · exact h
    · exact h
  · exact h

theorem execPageReclaim_orderly (h : s.Orderly asked) (p : Port) : Ordered asked (execPageReclaim p s) := by
  refine command_orderly h fun params => ?_
  split
  · split
    · exact h
    · split
      · exact h
      · exact removeAndServe_orderly h _
  · exact h

theorem execPageConfig_orderly (h : s.Orderly asked) (p : Port) : Ordered asked (execPageConfig p s) := by
  refine command_orderly h fun params => ?_
  split
  · split
    · exact h
    · split
      · exact h
      · exact serve_orderly (h.updPool _)
  · exact h

theorem execTimeConfig_orderly (h : s.Orderly asked) (p : Port) : Ordered asked (execTimeConfig p s) := by
  refine command_orderly h fun params => ?_
  split
  · simp only
    split
    · exact h
    · exact h.setTime _
  · exact h

theorem execTimeRead_orderly (h : s.Orderly asked) (p : Port) : Ordered asked (execTimeRead p s) := by
  refine command_orderly h fun params => ?_
  split
  · exact h
  · exact h

/-! ### The ports and the reset inputs (R177 to R183) -/

theorem execPortEnable_orderly (h : s.Orderly asked) (p : Port) : Ordered asked (execPortEnable p s) := by
  refine command_orderly h fun params => ?_
  split
  · split
    · exact h
    · exact enablePort_orderly h p
  · exact h

theorem execPeerDrop_orderly (h : s.Orderly asked) (p : Port) : Ordered asked (execPeerDrop p s) := by
  refine command_orderly h fun params => ?_
  split
  · split
    · exact losePortWhole_orderly h _
    · exact h
  · exact h

theorem execPortDrop_orderly (h : s.Orderly asked) (p : Port) : Ordered asked (execPortDrop p s) := by
  refine take_orderly h fun params => ?_
  split
  · split
    · exact losePortWhole_orderly (complete_orderly (r := done [] s) h p) p
    · exact complete_orderly (r := refuse .wrongState s) h p
  · exact complete_orderly (r := refuse .paramCount s) h p

theorem execDeviceReset_orderly (h : s.Orderly asked) (p : Port) : Ordered asked (execDeviceReset p s) := by
  refine take_orderly h fun params => ?_
  split
  · split
    · exact complete_orderly (r := refuse .peerActive s) h p
    · exact deviceReset_orderly s
  · exact complete_orderly (r := refuse .paramCount s) h p

theorem execBadCommand_orderly (h : s.Orderly asked) (p : Port) : Ordered asked (execBadCommand p s) := by
  unfold execBadCommand
  split
  · exact ordered_next h
  · split
    · exact ordered_next h
    · exact ordered_next (complete_orderly (r := refuse .badCommand s) h p)

theorem setPrst_orderly (h : s.Orderly asked) (p : Port) (b : Bool) : (s.updPort p fun r => { r with prst := b }).Orderly asked :=
  h.updPort ⟨rfl, rfl, rfl, rfl⟩

theorem execRstRelease_orderly (h : s.Orderly asked) : Ordered asked (execRstRelease s) := by
  unfold execRstRelease
  split
  · exact ordered_next (h.congr (.of_fields rfl rfl rfl rfl))
  · exact ordered_next h

/-! ### The window and the events (R118 to R121, R131 to R134, R161 to R172) -/

theorem access_orderly {f : State → State} (h : s.Orderly asked) (keeps : (f s).Orderly asked) : Ordered asked (access p f s) := by
  unfold access
  split
  · exact ordered_next keeps
  · exact ordered_next h

theorem State.Orderly.updUnit (h : s.Orderly asked) (p : Port) (f : PortUnit → PortUnit) : (s.updUnit p f).Orderly asked :=
  h.updPort ⟨rfl, rfl, rfl, rfl⟩

theorem accessUnit_orderly (h : s.Orderly asked) (p : Port) (f : PortUnit → PortUnit) :
    Ordered asked (access p (fun s => s.updUnit p f) s) := access_orderly h (h.updUnit p f)

theorem execPrmRead_orderly (h : s.Orderly asked) (p : Port) : Ordered asked (execPrmRead p s) := by
  unfold execPrmRead
  split
  · exact ordered_next (h.updUnit p _)
  · exact ordered_next (h.updUnit p _)

theorem execLineEvent_orderly (h : s.Orderly asked) (l : Line) (e : Edge) : Ordered asked (execLineEvent l e s) := by
  unfold execLineEvent
  split
  · exact ordered_next h
  · exact ordered_next (recogniseEdge_orderly h l e)

theorem execLineSample_orderly (h : s.Orderly asked) (levels : Byte) : Ordered asked (execLineSample levels s) := by
  unfold execLineSample
  split
  · exact ordered_next h
  · exact ordered_next (sampleLines_orderly h levels)

theorem execTick_orderly (h : s.Orderly asked) : Ordered asked (execTick s) := by
  unfold execTick
  split
  · exact ordered_next h
  · exact ordered_next (tickWhole_orderly h)

theorem execSliceExpiry_orderly (h : s.Orderly asked) (p : Port) : Ordered asked (execSliceExpiry p s) := by
  unfold execSliceExpiry
  split
  · exact ordered_next (countQuantum_orderly h p)
  · exact ordered_next h

/-! ### All of them -/

/-- Every row keeps the Dispatcher's laws. -/
theorem exec_orderly (h : s.Orderly asked) (c : Instr) : Ordered asked (exec c s) := by
  cases c with
  | taskCreate p => exact execTaskCreate_orderly h p
  | taskStart p => exact execTaskStart_orderly h p
  | taskDelete p => exact execTaskDelete_orderly h p
  | taskExit p => exact execTaskExit_orderly h p
  | taskHold p => exact execTaskHold_orderly h p
  | taskRelease p => exact execTaskRelease_orderly h p
  | taskSetpri p => exact execTaskSetpri_orderly h p
  | taskSetaff p => exact execTaskSetaff_orderly h p
  | taskSetctx p => exact execTaskSetctx_orderly h p
  | taskQuery p => exact execTaskQuery_orderly h p
  | taskSelf p => exact execTaskSelf_orderly h p
  | taskYield p => exact execTaskYield_orderly h p
  | taskDelay p => exact execTaskDelay_orderly h p
  | xchOpen p => exact execXchOpen_orderly h p
  | xchClose p => exact execXchClose_orderly h p
  | xchQuery p => exact execXchQuery_orderly h p
  | msgSend p => exact execMsgSend_orderly h p
  | msgRecv p => exact execMsgRecv_orderly h p
  | cntAcquire p => exact execCntAcquire_orderly h p
  | cntRelease p => exact execCntRelease_orderly h p
  | evtConfig p => exact execEvtConfig_orderly h p
  | evtWait p => exact execEvtWait_orderly h p
  | evtQuery p => exact execEvtQuery_orderly h p
  | pageAlloc p => exact execPageAlloc_orderly h p
  | pageFree p => exact execPageFree_orderly h p
  | pageGive p => exact execPageGive_orderly h p
  | pageQuery p => exact execPageQuery_orderly h p
  | pageReclaim p => exact execPageReclaim_orderly h p
  | pageConfig p => exact execPageConfig_orderly h p
  | timeConfig p => exact execTimeConfig_orderly h p
  | timeRead p => exact execTimeRead_orderly h p
  | portEnable p => exact execPortEnable_orderly h p
  | portDrop p => exact execPortDrop_orderly h p
  | peerDrop p => exact execPeerDrop_orderly h p
  | deviceReset p => exact execDeviceReset_orderly h p
  | badCommand p => exact execBadCommand_orderly h p
  | prmWrite p _ => exact accessUnit_orderly h p _
  | prmRead p => exact execPrmRead_orderly h p
  | intpWrite p _ => exact accessUnit_orderly h p _
  | inteWrite p _ => exact accessUnit_orderly h p _
  | accept p v => exact access_orderly h (takeAccept_orderly h p v)
  | writeIgnored _ _ _ => exact ordered_next h
  | prstAssert p => exact ordered_next (losePortWhole_orderly (setPrst_orderly h p true) p)
  | prstRelease p => exact ordered_next (setPrst_orderly h p false)
  | rstAssert => exact ordered_next ((deviceReset_orderly s).congr (.of_fields rfl rfl rfl rfl))
  | rstRelease => exact execRstRelease_orderly h
  | lineEvent l e => exact execLineEvent_orderly h l e
  | tick => exact execTick_orderly h
  | expiry t => exact ordered_next (expire_orderly h t)
  | sliceExpiry p => exact execSliceExpiry_orderly h p
  | cmdWrite p _ => exact accessUnit_orderly h p _
  | lineSample levels => exact execLineSample_orderly h levels

theorem step_orderly (h : s.Orderly asked) : Ordered asked (step s) := by
  unfold step
  split
  · exact ordered_next (clkPeriod_orderly h)
  · next c rest _ =>
    have taken : { s with pending := rest }.Orderly asked := h.congr (.of_fields rfl rfl rfl rfl)
    exact exec_orderly taken c

/-- Settles O58: the agreement of the records, with no urgency asked for. -/
theorem everyStepKeepsTheDispatcherLaw : Obligations.EveryStepKeepsTheDispatcherLaw :=
  fun _ u e h => (step_orderly (asked := False) ⟨h, False.elim⟩ u e).dispatcher

/-- Settles O59: the agreement of the records and the urgency of the nexts, which it needs, together. -/
theorem everyStepKeepsTheUrgencyLaw : Obligations.EveryStepKeepsTheUrgencyLaw :=
  fun _ u e h urgent => (step_orderly (asked := True) ⟨h, fun _ => urgent⟩ u e).urgency trivial

end

end Sys2Proof.Machine

/-! ## Selection and the choice of a port (R32, R34) -/

namespace Sys2Proof.Machine

section
variable {s : State} {p : Port} {t : Slot}

/-! ### Selection (R32) -/

theorem State.queues_length (s : State) : s.queues.toList.length = 32 := by simp

theorem State.queues_getElem (s : State) (level : Fin 32) (h : level.val < s.queues.toList.length) :
    s.queues.toList[level.val] = s.queue level := by simp [State.queue]

theorem State.mem_queues_toList {q : List Slot} : q ∈ s.queues.toList ↔ ∃ level, s.queue level = q := by
  constructor
  · intro mem
    obtain ⟨i, hi, rfl⟩ := List.getElem_of_mem mem
    exact ⟨⟨i, s.queues_length ▸ hi⟩, (s.queues_getElem ⟨i, s.queues_length ▸ hi⟩ hi).symm⟩
  · rintro ⟨level, rfl⟩
    have h : level.val < s.queues.toList.length := by rw [s.queues_length]; exact level.isLt
    exact s.queues_getElem level h ▸ List.getElem_mem h

theorem selection_eq_none : s.selection p = none ↔ ∀ level, ∀ t ∈ s.queue level, ¬s.EligibleFor p t := by
  unfold State.selection
  simp only [List.find?_eq_none, List.mem_flatten, State.mem_queues_toList, eligible_iff]
  constructor
  · exact fun h level t mem => h t ⟨_, ⟨level, rfl⟩, mem⟩
  · rintro h t ⟨_, ⟨level, rfl⟩, mem⟩
    exact h level t mem

/-- The queues before a level, the level's own queue and those behind it. -/
theorem State.queues_split (s : State) (level : Fin 32) :
    s.queues.toList = s.queues.toList.take level.val ++ s.queue level :: s.queues.toList.drop (level.val + 1) := by
  have h : level.val < s.queues.toList.length := by rw [s.queues_length]; exact level.isLt
  rw [← s.queues_getElem level h, ← List.drop_eq_getElem_cons h, List.take_append_drop]

theorem State.mem_take_queues {level : Fin 32} {q : List Slot} :
    q ∈ s.queues.toList.take level.val ↔ ∃ better < level, s.queue better = q := by
  rw [List.mem_take_iff_getElem]
  constructor
  · rintro ⟨i, hi, rfl⟩
    have lt : i < level.val := by omega
    exact ⟨⟨i, lt.trans level.isLt⟩, lt, (s.queues_getElem ⟨i, lt.trans level.isLt⟩ _).symm⟩
  · rintro ⟨better, lt, rfl⟩
    have lt : better.val < level.val := lt
    exact ⟨better.val, by rw [s.queues_length]; omega, s.queues_getElem better _⟩

theorem selection_eq_some : s.selection p = some t ↔
    ∃ level, s.FirstEligible p level t ∧ ∀ better < level, ∀ u ∈ s.queue better, ¬s.EligibleFor p u := by
  unfold State.selection State.FirstEligible
  rw [List.find?_flatten_eq_some_iff, eligible_iff]
  simp only [Bool.not_eq_eq_eq_not, Bool.not_true, ← Bool.not_eq_true, eligible_iff]
  constructor
  · rintro ⟨eligible, levels, before, after, rest, split, none_better, none_before⟩
    have len : levels.length < 32 := by
      have := congrArg List.length split
      rw [s.queues_length, List.length_append, List.length_cons] at this
      omega
    have here : levels.length < s.queues.toList.length := by rw [s.queues_length]; exact len
    refine ⟨⟨levels.length, len⟩, ⟨before, after, ?_, eligible, none_before⟩, fun better lt u mem => ?_⟩
    · rw [← s.queues_getElem ⟨levels.length, len⟩ here]
      simp only [split, List.getElem_append_right le_rfl, Nat.sub_self, List.getElem_cons_zero]
    · refine none_better _ ?_ u mem
      have taken : s.queue better ∈ s.queues.toList.take levels.length :=
        State.mem_take_queues (level := ⟨levels.length, len⟩).2 ⟨better, lt, rfl⟩
      rwa [split, List.take_left] at taken
  · rintro ⟨level, ⟨before, after, queue, eligible, none_before⟩, none_better⟩
    refine ⟨eligible, _, before, after, _, queue ▸ s.queues_split level, fun q mem u hu => ?_, none_before⟩
    obtain ⟨better, lt, rfl⟩ := State.mem_take_queues.1 mem
    exact none_better better lt u hu

/-- Settles O14: the queues stand one behind the other in the order of their levels. -/
theorem selectionIsTheBestEligibleReadyTask : Obligations.SelectionIsTheBestEligibleReadyTask :=
  fun _ _ => ⟨selection_eq_none, fun _ => selection_eq_some⟩

/-! ### The choice of a port (R34) -/

theorem isCandidate_eq_false : s.isCandidate t p = false ↔ ¬s.Candidate t p := by
  rw [← isCandidate_iff, Bool.not_eq_true]

theorem choosePort_none_iff : s.choosePort t = none ↔ ∀ p, ¬s.Candidate t p := by
  constructor
  · exact fun h p => isCandidate_eq_false.1 (choosePort_eq_none h p)
  · intro h
    cases e : s.choosePort t with
    | none => rfl
    | some p => exact absurd ((isCandidate_iff s t p).1 (choosePort_candidate e)) (h p)

/-- A single candidate is chosen. -/
theorem choosePort_single (one : s.Candidate t p) (other : ¬s.Candidate t (otherPort p)) : s.choosePort t = some p := by
  have one := (isCandidate_iff s t p).2 one
  have other := isCandidate_eq_false.2 other
  unfold State.choosePort
  cases p
  · simp only [one, show s.isCandidate t .B = false from other]
  · simp only [one, show s.isCandidate t .A = false from other]

/-- Of two candidates the one whose next is less urgent, and Port A when neither is. -/
theorem choosePort_both (a : s.Candidate t .A) (b : s.Candidate t .B) :
    s.choosePort t = if s.urgency (s.next .A) < s.urgency (s.next .B) then some .B else some .A := by
  unfold State.choosePort
  simp only [(isCandidate_iff s t .A).2 a, (isCandidate_iff s t .B).2 b]

/-- A port whose next is IDLE is chosen before one whose next is a task. -/
theorem choosePort_idle (a : s.Candidate t .A) (b : s.Candidate t .B) (idle : s.next p = none) (busy : s.next (otherPort p) ≠ none) :
    s.choosePort t = some p := by
  obtain ⟨y, hy⟩ := Option.ne_none_iff_exists'.1 busy
  have lt := urgency_some_lt s y
  rw [choosePort_both a b]
  cases p
  · rw [idle, show s.next .B = some y from hy, urgency_none, if_neg (by omega)]
  · rw [idle, show s.next .A = some y from hy, urgency_none, if_pos lt]

/-- Settles O15: IDLE ranks behind every task, so the comparison of the two nexts is the rule's first two tests. -/
theorem choiceAmongTheCandidatePorts : Obligations.ChoiceAmongTheCandidatePorts := by
  intro s t
  refine ⟨choosePort_none_iff, fun p => choosePort_single, fun a b =>
    ⟨fun p => choosePort_idle a b, fun ha hb => ?_, fun y z ha hb => ?_⟩⟩
  · rw [choosePort_both a b, ha, hb, if_neg (lt_irrefl _)]
  · rw [choosePort_both a b, ha, hb, urgency_some, urgency_some]
    refine ⟨fun lt => if_neg ?_, fun lt => if_pos lt, fun e => if_neg ?_⟩
    · exact Nat.not_lt.2 (Nat.le_of_lt lt)
    · rw [e]; exact lt_irrefl _

end

end Sys2Proof.Machine

/-! ## Placement and TASK.YIELD (R30, R33 to R36, R40) -/

namespace Sys2Proof.Machine

section
variable {s : State} {p : Port} {t x : Slot}

/-! ### The cascade comes to its end -/

/-- A displaced task is less urgent than the task that took the port (R33). -/
theorem displaced_less_urgent {y : Slot} (chosen : s.choosePort t = some p) (displaced : s.displacedBy p = some y) :
    (s.task t).priority < (s.task y).priority := by
  obtain ⟨-, lt⟩ := State.isCandidate_spec.1 (choosePort_candidate chosen)
  rwa [State.next_of_isIncoming (State.displacedBy_eq_some.1 displaced)] at lt

/-- The priority of a displaced task when it is placed in turn. -/
theorem displaced_priority {y : Slot} (chosen : s.choosePort t = some p) :
    ((enterHead y (takePort p t s)).task y).priority = (s.task y).priority :=
  ((takePort_frame p t s (choosePort_enabled chosen)).trans (enterHead_frame y _)).priority y

theorem placeRounds_of_none (n : Nat) (h : s.choosePort t = none) : placeRounds (n + 1) t s = s := by
  rw [placeRounds, h]

theorem placeRounds_of_not_displacing (n : Nat) (chosen : s.choosePort t = some p) (nobody : s.displacedBy p = none) :
    placeRounds (n + 1) t s = takePort p t s := by
  rw [placeRounds, chosen]
  simp only [nobody]

theorem placeRounds_of_displacing (n : Nat) {y : Slot} (chosen : s.choosePort t = some p) (displaced : s.displacedBy p = some y) :
    placeRounds (n + 1) t s = placeRounds n y (enterHead y (takePort p t s)) := by
  rw [placeRounds, chosen]
  simp only [displaced]

/-- As many rounds as there are levels from the task's own on are as good as any more (log entry 13). -/
theorem placeRounds_enough (n : Nat) : ∀ (m : Nat) (t : Slot) (s : State), 32 ≤ n + (s.task t).priority.val →
    32 ≤ m + (s.task t).priority.val → placeRounds n t s = placeRounds m t s := by
  induction n with
  | zero => intro m t s rounds; exact absurd (s.task t).priority.isLt (by omega)
  | succ n ih =>
    intro m t s hn hm
    cases m with
    | zero => exact absurd (s.task t).priority.isLt (by omega)
    | succ m =>
      cases chosen : s.choosePort t with
      | none => rw [placeRounds_of_none n chosen, placeRounds_of_none m chosen]
      | some p =>
        cases displaced : s.displacedBy p with
        | none => rw [placeRounds_of_not_displacing n chosen displaced, placeRounds_of_not_displacing m chosen displaced]
        | some y =>
          have lt : (s.task t).priority.val < (s.task y).priority.val := displaced_less_urgent chosen displaced
          rw [placeRounds_of_displacing n chosen displaced, placeRounds_of_displacing m chosen displaced]
          exact ih m y _ (by rw [displaced_priority chosen]; omega) (by rw [displaced_priority chosen]; omega)

/-! ### Placement (R33, R35, R36) -/

theorem place_of_none (h : s.choosePort t = none) : place t s = s := placeRounds_of_none 31 h

theorem place_of_not_displacing (chosen : s.choosePort t = some p) (nobody : s.displacedBy p = none) : place t s = takePort p t s :=
  placeRounds_of_not_displacing 31 chosen nobody

/-- The displaced task enters the head of its level and is placed in turn. -/
theorem place_of_displacing {y : Slot} (chosen : s.choosePort t = some p) (displaced : s.displacedBy p = some y) :
    place t s = readyHead y (takePort p t s) := by
  have lt : (s.task t).priority.val < (s.task y).priority.val := displaced_less_urgent chosen displaced
  calc place t s = placeRounds 31 y (enterHead y (takePort p t s)) := placeRounds_of_displacing 31 chosen displaced
    _ = readyHead y (takePort p t s) :=
      placeRounds_enough 31 32 y _ (by rw [displaced_priority chosen]; omega) (by rw [displaced_priority chosen]; omega)

/-- A port without an occupant, or with a SWITCH offer, is taken with its disposition as it stands. -/
theorem takePort_of_departing (h : (s.port p).occ.occupant = none ∨ ∃ o, (s.port p).occ.offer = some o ∧ o.kind = .switchTask) :
    takePort p t s = offerTask p t s := by
  rw [takePort_eq, State.preempted]
  rcases h with idle | ⟨o, offer, switch⟩
  · simp [idle]
  · simp [offer, switch]

/-- An occupant that had the port, SETTLED or in a CONTINUE offer, becomes READY_HEAD. -/
theorem takePort_of_staying (occupied : (s.port p).occ.occupant ≠ none)
    (stays : ∀ o, (s.port p).occ.offer = some o → o.kind = .continueTask) :
    takePort p t s = offerTask p t (s.setDisposition p .readyHead) := by
  rw [takePort_eq, State.preempted]
  have some_there := Option.isSome_iff_ne_none.2 occupied
  cases offer : (s.port p).occ.offer with
  | none => simp [some_there]
  | some o => simp [some_there, stays o offer]

theorem displacedBy_of_offer {o : Offer} (offer : (s.port p).occ.offer = some o) :
    s.displacedBy p = if o.kind = .switchTask then o.incoming else none := by
  rw [State.displacedBy, offer]

/-- Settles O16: by the offer and the occupant of the chosen port. -/
theorem placementOffersAndCascades : Obligations.PlacementOffersAndCascades := by
  refine ⟨fun t s => ⟨rfl, rfl⟩, fun t s => ⟨place_of_none, fun p chosen => ?_⟩⟩
  intro occ
  have settled (offer : (s.port p).occ.offer = none) : place t s = takePort p t s :=
    place_of_not_displacing chosen (by rw [State.displacedBy, offer])
  refine ⟨fun offer idle => ?_, fun offer occupied => ?_, fun o offer => ?_⟩
  · rw [settled offer, takePort_of_departing (.inl idle)]
  · rw [settled offer, takePort_of_staying occupied fun o e => by rw [offer] at e; cases e]
  · have displaced := displacedBy_of_offer offer
    have switched (switch : o.kind = .switchTask) : takePort p t s = offerTask p t s := takePort_of_departing (.inr ⟨o, offer, switch⟩)
    have continued (continues : o.kind = .continueTask) : place t s = takePort p t s :=
      place_of_not_displacing chosen (by rw [displaced, continues]; rfl)
    refine ⟨fun switch idle => ?_, fun y switch incoming => ?_, fun continues idle => ?_, fun continues occupied => ?_⟩
    · rw [place_of_not_displacing chosen (by rw [displaced, if_pos switch, idle]), switched switch]
    · rw [place_of_displacing chosen (by rw [displaced, if_pos switch, incoming]), switched switch]
    · rw [continued continues, takePort_of_departing (.inl idle)]
    · rw [continued continues, takePort_of_staying occupied fun o' e => by cases offer.symm.trans e; exact continues]

/-! ### TASK.YIELD (R40) -/

theorem exec_taskYield (caller : s.IsCaller p x) (submitted : s.Submitted p .taskYield []) :
    exec (.taskYield p) s = .next ((yieldPort p x s).completed p 0x00 []) := by
  simp only [exec, execTaskYield]
  exact command_carriesOut submitted (withCaller_of_isCaller caller _)

/-- Settles O30: by the peer F and the caller's disposition, the branches of yieldPort. -/
theorem taskYieldPassesThePort : Obligations.TaskYieldPassesThePort := by
  intro p s x caller submitted d
  rw [exec_taskYield caller submitted]
  refine ⟨fun no_peer => ?_, fun tail => ?_, fun f peer => ⟨?_, fun head => ?_⟩⟩
  · rw [yieldPort, firstPeer_eq_none.2 no_peer]
  · have same : yieldPort p x s = s := by
      unfold yieldPort
      split
      · rfl
      · simp only [show (s.port p).occ.disposition = some .readyTail from tail]
    rw [same]
  · rintro (settled | stay)
    · simp only [yieldPort, firstPeer_eq_some.2 peer, show (s.port p).occ.disposition = none from settled]
    · simp only [yieldPort, firstPeer_eq_some.2 peer, show (s.port p).occ.disposition = some .stay from stay]
  · simp only [yieldPort, firstPeer_eq_some.2 peer, show (s.port p).occ.disposition = some .readyHead from head]

end

end Sys2Proof.Machine

/-! ## Offers, re-decisions and accepts (R46 to R48, R53 to R60, R62 to R65) -/

namespace Sys2Proof.Machine

section
variable {s : State} {p : Port} {x t : Slot} {o : Offer} {gone : Bool} {value : Byte}

/-! ### Updates of one port -/

theorem State.updPort_updPort (s : State) (p : Port) (f g : PortRecord → PortRecord) :
    (s.updPort p f).updPort p g = s.updPort p fun r => g (f r) := by
  cases p <;> rfl

/-- An update of a port is known by what it makes of the port's record. -/
theorem State.updPort_congr {f g : PortRecord → PortRecord} (h : f (s.port p) = g (s.port p)) : s.updPort p f = s.updPort p g := by
  cases p
  · exact congrArg (fun r => { s with portA := r }) h
  · exact congrArg (fun r => { s with portB := r }) h

theorem State.updTask_congr {f g : TaskRecord → TaskRecord} (h : f (s.task t) = g (s.task t)) : s.updTask t f = s.updTask t g := by
  rw [State.updTask, h]; rfl

/-- Updates of a port and of a task commute. -/
theorem State.updPort_updTask (s : State) (p : Port) (t : Slot) (f : PortRecord → PortRecord) (g : TaskRecord → TaskRecord) :
    (s.updPort p f).updTask t g = (s.updTask t g).updPort p f := by
  cases p <;> rfl

theorem PortRecord.not_disabled {r : PortRecord} (enabled : r.lifecycle = .enabled) : ¬r.isEnabled = false := by
  simp [PortRecord.isEnabled, enabled]

/-! ### The written offer (R46, R47, R59, R60) -/

/-- The two updates of a written offer, of the occupancy record and of the OFFER cause, as one. -/
theorem writeOffer_eq (p : Port) (k : OfferKind) (y : Option Slot) (s : State) :
    writeOffer p k y s =
      s.updPort p fun r =>
        { r with
          occ := { r.occ with sequence := r.occ.sequence + 1, offer := some (s.offerOf p k y) }
          unit := { r.unit with intp := if r.prst then r.unit.intp else r.unit.intp ||| Cause.offer.mask } } := by
  rw [writeOffer, State.raise, State.updOcc, State.updPort_updPort]
  apply State.updPort_congr
  rw [PortRecord.raise]
  split
  · next asserted => simp only [show (s.port p).prst = true from asserted]; rfl
  · next released => simp only [show ¬(s.port p).prst = true from released]; rfl

/-- Settles O13: the fields of the offer are those of offerOf, read from the port that is written. -/
theorem offerIsWrittenFromTheRecords : Obligations.OfferIsWrittenFromTheRecords :=
  ⟨fun p k y s => (writeOffer_eq p k y s).trans (State.updPort_congr rfl), fun _ _ _ => rfl⟩

/-! ### The winner (R54) -/

/-- Without a standing incoming the occupant is measured against the selection alone. -/
theorem winner_of_no_incoming (none_stands : (s.port p).occ.standingIncoming gone = none) :
    s.winner p gone =
      if (s.port p).occ.occupantStays ∧ s.urgency (s.port p).occ.occupant ≤ s.urgency (s.selection p) then .occupant
      else .selected (s.selection p) := by
  simp only [State.winner, none_stands]

theorem winner_of_incoming {y : Option Slot} (stands : (s.port p).occ.standingIncoming gone = some y) :
    s.winner p gone =
      if (s.port p).occ.occupantStays ∧ s.urgency (s.port p).occ.occupant ≤ s.urgency y ∧
        s.urgency (s.port p).occ.occupant ≤ s.urgency (s.selection p) then .occupant
      else if s.urgency y ≤ s.urgency (s.selection p) then .incoming
      else .selected (s.selection p) := by
  simp only [State.winner, stands]

/-- An incoming that a delete or a hold removed is no candidate. -/
theorem standingIncoming_of_gone (occ : Occupancy) : occ.standingIncoming true = none := by
  cases h : occ.standingIncoming true with
  | none => rfl
  | some y => cases (Occupancy.standingIncoming_eq_some h).1

/-- A port that is SETTLED or has a CONTINUE offer has no incoming to compare. -/
theorem standingIncoming_of_no_switch (no_switch : ∀ o, (s.port p).occ.offer = some o → o.kind = .continueTask) :
    (s.port p).occ.standingIncoming gone = none := by
  cases h : (s.port p).occ.standingIncoming gone with
  | none => rfl
  | some y =>
    obtain ⟨-, o, offer, switch, -⟩ := Occupancy.standingIncoming_eq_some h
    cases switch.symm.trans (no_switch o offer)

theorem standingIncoming_of_switch (offer : (s.port p).occ.offer = some o) (switch : o.kind = .switchTask) :
    (s.port p).occ.standingIncoming false = some o.incoming := by
  simp [Occupancy.standingIncoming, offer, switch]

/-! ### An occupant that loses the port (R55, R57) -/

theorem losePort_of_idle (idle : (s.port p).occ.occupant = none) : losePort p s = s := by
  simp only [losePort, idle]

theorem losePort_of_undisposed (occupied : (s.port p).occ.occupant = some x) (undisposed : (s.port p).occ.disposition = none) :
    losePort p s = s.setDisposition p .readyTail := by
  simp only [losePort, occupied, undisposed]

theorem losePort_of_stay (occupied : (s.port p).occ.occupant ≠ none) (stay : (s.port p).occ.disposition = some .stay) :
    losePort p s = s.setDisposition p .readyTail := by
  obtain ⟨x, hx⟩ := Option.ne_none_iff_exists'.1 occupied
  simp only [losePort, hx, stay]

/-- A task with a disposition other than STAY keeps it. -/
theorem losePort_of_departing {d : Disposition} (disposed : (s.port p).occ.disposition = some d) (departs : d ≠ .stay) :
    losePort p s = s := by
  unfold losePort
  split
  · next undisposed => rw [disposed] at undisposed; cases undisposed
  · next stay => rw [disposed] at stay; exact absurd (Option.some.inj stay) departs
  · rfl

/-! ### Re-decision without a SWITCH offer (R55, R57) -/

/-- A SETTLED port and one with a CONTINUE offer are re-decided alike: the occupant holds the port against the selection. -/
theorem redecide_of_no_switch (enabled : (s.port p).lifecycle = .enabled)
    (no_switch : ∀ o, (s.port p).occ.offer = some o → o.kind = .continueTask) :
    redecide p gone s =
      if (s.port p).occ.occupantStays ∧ s.urgency (s.port p).occ.occupant ≤ s.urgency (s.selection p) then s
      else offerNext p (s.selection p) (losePort p s) := by
  rw [redecide, if_neg (PortRecord.not_disabled enabled), winner_of_no_incoming (standingIncoming_of_no_switch no_switch)]
  cases offer : (s.port p).occ.offer with
  | none => split_ifs <;> rfl
  | some o =>
    simp only [no_switch o offer]
    split_ifs <;> rfl

/-- An occupant that is a candidate and that the selection does not beat stays. -/
theorem redecide_keeps (enabled : (s.port p).lifecycle = .enabled)
    (no_switch : ∀ o, (s.port p).occ.offer = some o → o.kind = .continueTask) (stays : (s.port p).occ.occupantStays = true)
    (wins : s.urgency (s.port p).occ.occupant ≤ s.urgency (s.selection p)) : redecide p gone s = s := by
  rw [redecide_of_no_switch enabled no_switch, if_pos ⟨stays, wins⟩]

/-- An occupant that is no candidate or that the selection beats gives way. -/
theorem redecide_gives_way (enabled : (s.port p).lifecycle = .enabled)
    (no_switch : ∀ o, (s.port p).occ.offer = some o → o.kind = .continueTask)
    (loses : (s.port p).occ.occupantStays = true → s.urgency (s.selection p) < s.urgency (s.port p).occ.occupant) :
    redecide p gone s = offerNext p (s.selection p) (losePort p s) := by
  rw [redecide_of_no_switch enabled no_switch, if_neg fun ⟨stays, wins⟩ => absurd (loses stays) (Nat.not_lt.2 wins)]

theorem occupantStays_of_undisposed (undisposed : (s.port p).occ.disposition = none) : (s.port p).occ.occupantStays = true :=
  Occupancy.occupantStays_iff.2 (.inr fun d e => by rw [undisposed] at e; cases e)

theorem occupantStays_of_idle (idle : (s.port p).occ.occupant = none) : (s.port p).occ.occupantStays = true :=
  Occupancy.occupantStays_iff.2 (.inl idle)

/-- A task that was told to leave is no candidate (R54). -/
theorem not_occupantStays_of_leaves {d : Disposition} (occupied : (s.port p).occ.occupant = some x)
    (disposed : (s.port p).occ.disposition = some d) (leaves : d.Leaves) : ¬(s.port p).occ.occupantStays = true := by
  rw [Occupancy.occupantStays_iff, occupied]
  rintro (idle | stays)
  · cases idle
  · exact stays d disposed leaves

theorem urgency_le_idle (s : State) (y : Option Slot) : s.urgency y ≤ s.urgency none := by
  cases y with
  | none => exact le_rfl
  | some t => exact (urgency_some_lt s t).le

/-- Settles O17: by the occupant and its disposition, with IDLE less urgent than every task. -/
theorem reDecisionOfASettledPort : Obligations.ReDecisionOfASettledPort := by
  intro p gone s
  refine ⟨fun disabled => redecide_of_disabled (by simp [PortRecord.isEnabled, disabled]), fun enabled settled => ?_⟩
  have no_switch (o : Offer) (offer : (s.port p).occ.offer = some o) : o.kind = .continueTask := by rw [settled] at offer; cases offer
  refine ⟨fun idle => ?_, fun x occupied => ⟨fun undisposed => ?_, fun d disposed leaves => ?_⟩⟩
  · have stays := occupantStays_of_idle idle
    refine ⟨fun nobody => redecide_keeps enabled no_switch stays (by rw [idle, nobody]), fun t selected => ?_⟩
    rw [redecide_gives_way enabled no_switch fun _ => by rw [idle, selected]; exact urgency_some_lt s t,
      losePort_of_idle idle, selected, offerNext]
  · have stays := occupantStays_of_undisposed undisposed
    refine ⟨fun nobody => ?_, fun t selected => ⟨fun wins => ?_, fun loses => ?_⟩⟩
    · exact redecide_keeps enabled no_switch stays (by rw [nobody]; exact urgency_le_idle s _)
    · exact redecide_keeps enabled no_switch stays (by rw [occupied, selected]; exact wins)
    · rw [redecide_gives_way enabled no_switch fun _ => by rw [occupied, selected]; exact loses,
        losePort_of_undisposed occupied undisposed, selected, offerNext]
  · have departs : d ≠ .stay := by rintro rfl; simp at leaves
    have switches : redecide p gone s = offerNext p (s.selection p) s := by
      rw [redecide_gives_way enabled no_switch fun stays => absurd stays (not_occupantStays_of_leaves occupied disposed leaves),
        losePort_of_departing disposed departs]
    exact ⟨fun nobody => by rw [switches, nobody, offerNext], fun t selected => by rw [switches, selected, offerNext]⟩

/-! ### Re-decision of an OFFERED port (R56 to R58) -/

theorem redecide_switch_incoming (enabled : (s.port p).lifecycle = .enabled) (offer : (s.port p).occ.offer = some o)
    (switch : o.kind = .switchTask) (wins : s.winner p gone = .incoming) : redecide p gone s = s := by
  rw [redecide, if_neg (PortRecord.not_disabled enabled), offer, wins]
  simp only [switch]

theorem redecide_switch_occupant (enabled : (s.port p).lifecycle = .enabled) (offer : (s.port p).occ.offer = some o)
    (switch : o.kind = .switchTask) (wins : s.winner p gone = .occupant) :
    redecide p gone s = displace (if gone then none else o.incoming) (continueOccupant p s) := by
  rw [redecide, if_neg (PortRecord.not_disabled enabled), offer, wins]
  simp only [switch]

theorem redecide_switch_selected (enabled : (s.port p).lifecycle = .enabled) (offer : (s.port p).occ.offer = some o)
    (switch : o.kind = .switchTask) {y : Option Slot} (wins : s.winner p gone = .selected y) :
    redecide p gone s = displace (if gone then none else o.incoming) (offerNext p y s) := by
  rw [redecide, if_neg (PortRecord.not_disabled enabled), offer, wins]
  simp only [switch]

/-- On an OFFERED port an occupant is a candidate when it is IDLE, READY_HEAD, READY_TAIL or STAY (R54). -/
theorem occupantStays_of_disposed (disposed : (s.port p).occ.occupant ≠ none → (s.port p).occ.disposition ≠ none) :
    (s.port p).occ.occupantStays = true ↔
      (s.port p).occ.occupant = none ∨ (s.port p).occ.disposition = some .readyHead ∨
        (s.port p).occ.disposition = some .readyTail ∨ (s.port p).occ.disposition = some .stay := by
  rw [Occupancy.occupantStays_iff]
  cases occupied : (s.port p).occ.occupant with
  | none => simp
  | some x =>
    obtain ⟨d, hd⟩ := Option.ne_none_iff_exists'.1 (disposed (by simp [occupied]))
    rw [hd]
    cases d <;> simp [Disposition.Leaves]

/-- Settles O18: by the winner, whose ties go to the occupant and then to the incoming. -/
theorem reDecisionOfAnOfferedPort : Obligations.ReDecisionOfAnOfferedPort := by
  intro p s o enabled offer x d stays best continued switched displacing disposed
  have candidate : (s.port p).occ.occupantStays = true ↔ stays := occupantStays_of_disposed disposed
  refine ⟨fun switch => ?_, fun continues => ?_⟩
  · have standing := winner_of_incoming (standingIncoming_of_switch offer switch)
    have alone := winner_of_no_incoming (s := s) (p := p) (standingIncoming_of_gone _)
    refine ⟨fun beaten wins => ?_, fun stay over_incoming over_best => ?_, fun beaten loses => ?_, fun stay over_best => ?_,
      fun beaten => ?_⟩
    · refine redecide_switch_incoming enabled offer switch (standing.trans ?_)
      rw [if_neg fun ⟨stay, le, _⟩ => absurd (beaten (candidate.1 stay)) (Nat.not_lt.2 le), if_pos wins]
    · exact redecide_switch_occupant enabled offer switch (standing.trans (if_pos ⟨candidate.2 stay, over_incoming, over_best⟩))
    · refine redecide_switch_selected enabled offer switch (standing.trans ?_)
      rw [if_neg fun ⟨stay, _, le⟩ => absurd (beaten (candidate.1 stay)) (Nat.not_lt.2 le), if_neg (Nat.not_le.2 loses)]
    · exact redecide_switch_occupant enabled offer switch (alone.trans (if_pos ⟨candidate.2 stay, over_best⟩))
    · exact redecide_switch_selected enabled offer switch
        (alone.trans (if_neg fun ⟨stay, le⟩ => absurd (beaten (candidate.1 stay)) (Nat.not_lt.2 le)))
  · have no_switch (o' : Offer) (offer' : (s.port p).occ.offer = some o') : o'.kind = .continueTask := by
      cases offer.symm.trans offer'; exact continues
    refine ⟨fun stay wins => ?_, fun t selected idle => ?_, fun t selected occupied stay loses => ?_, fun leaving => ?_⟩
    · exact redecide_keeps enabled no_switch (candidate.2 stay) wins
    · have idle : (s.port p).occ.occupant = none := idle
      rw [redecide_gives_way enabled no_switch fun _ => by rw [idle, selected]; exact urgency_some_lt s t, losePort_of_idle idle,
        selected, offerNext]
    · rw [redecide_gives_way enabled no_switch fun _ => loses, losePort_of_stay occupied stay, selected, offerNext]
    · obtain ⟨e, he⟩ := Option.ne_none_iff_exists'.1 (disposed fun idle => leaving (.inl idle))
      have departs : e ≠ .stay := by rintro rfl; exact leaving (.inr (.inr (.inr he)))
      rw [redecide_gives_way enabled no_switch fun stay => absurd (candidate.1 stay) leaving, losePort_of_departing he departs]
      rfl

/-! ### The checks of an accept (R62) -/

/-- With the window open an accept is taken. -/
theorem exec_accept (released : (s.port p).prst = false) (running : s.rst = false) (value : Byte) :
    exec (.accept p value) s = .next (takeAccept p value s) :=
  if_pos (by simp [State.windowOpen, released, running])

theorem takeAccept_of_busy (busy : (s.port p).unit.command ≠ none) (value : Byte) :
    takeAccept p value s = setAcceptStatus p .busyRefused s :=
  if_pos (Option.isSome_iff_ne_none.2 busy)

theorem PortRecord.not_busy {r : PortRecord} (ready : r.unit.command = none) : ¬r.busy = true := by
  simp [PortRecord.busy, ready]

theorem takeAccept_unoffered (ready : (s.port p).unit.command = none) (unoffered : (s.port p).occ.offer = none) (value : Byte) :
    takeAccept p value s = setAcceptStatus p .stale s := by
  rw [takeAccept, if_neg (PortRecord.not_busy ready)]
  simp only [unoffered]

theorem takeAccept_stale (ready : (s.port p).unit.command = none) (offer : (s.port p).occ.offer = some o) (stale : value ≠ o.sequence) :
    takeAccept p value s = setAcceptStatus p .stale s := by
  rw [takeAccept, if_neg (PortRecord.not_busy ready)]
  simp only [offer, if_pos stale]

/-- The accept of the posted sequence is applied as the kind of the offer says. -/
theorem takeAccept_switch (ready : (s.port p).unit.command = none) (offer : (s.port p).occ.offer = some o)
    (switch : o.kind = .switchTask) : takeAccept p o.sequence s = acceptSwitch p o.incoming s := by
  rw [takeAccept, if_neg (PortRecord.not_busy ready)]
  simp only [offer, if_neg (not_not.2 (Eq.refl o.sequence)), switch]

theorem takeAccept_continue (ready : (s.port p).unit.command = none) (offer : (s.port p).occ.offer = some o)
    (continues : o.kind = .continueTask) : takeAccept p o.sequence s = acceptContinue p s := by
  rw [takeAccept, if_neg (PortRecord.not_busy ready)]
  simp only [offer, if_neg (not_not.2 (Eq.refl o.sequence)), continues]

/-- What the outgoing occupant becomes changes no port beyond the Dispatcher's frame. -/
theorem applyDisposition_port (x : Slot) (d : Option Disposition) (s : State) (q : Port) :
    PortFrame (s.port q) ((applyDisposition x d s).port q) := by
  unfold applyDisposition
  split
  · exact (readyHead_frame x s).port q
  · exact (readyTail_frame x s).port q
  · rw [State.setTaskState_port]; exact .refl _
  · rw [State.updTask_port]; exact .refl _
  · exact (retire_objects x false s).port q
  · exact .refl _
  · exact .refl _

theorem accepted_acceptStatus (s : State) (p : Port) (y : Option Slot) : ((s.accepted p y).port p).occ.acceptStatus = .accepted := by
  rw [State.accepted_port, if_pos rfl]

theorem acceptSwitch_acceptStatus (p : Port) (y : Option Slot) (s : State) :
    ((acceptSwitch p y s).port p).occ.acceptStatus = .accepted := by
  rw [acceptSwitch_eq]
  split
  · rw [(applyDisposition_port _ _ _ p).acceptStatus, accepted_acceptStatus]
  · exact accepted_acceptStatus s p y

/-- Whichever its kind, the applied accept says so in accept status (R67). -/
theorem takeAccept_applied (ready : (s.port p).unit.command = none) (offer : (s.port p).occ.offer = some o) :
    ((takeAccept p o.sequence s).port p).occ.acceptStatus = .accepted := by
  cases kind : o.kind with
  | switchTask => rw [takeAccept_switch ready offer kind, acceptSwitch_acceptStatus]
  | continueTask => rw [takeAccept_continue ready offer kind, acceptContinue_eq, accepted_acceptStatus]

/-- Settles O32: the checks in the order of R62. -/
theorem acceptIsCheckedInOrder : Obligations.AcceptIsCheckedInOrder := by
  intro p s v released running status
  rw [exec_accept released running]
  refine ⟨fun busy => by rw [takeAccept_of_busy busy]; rfl, fun ready unoffered => by rw [takeAccept_unoffered ready unoffered]; rfl,
    fun o ready offer => ⟨fun stale => by rw [takeAccept_stale ready offer stale]; rfl, ?_⟩⟩
  rintro rfl
  exact ⟨_, rfl, takeAccept_applied ready offer⟩

/-! ### The applied accept (R63 to R65) -/

/-- The port of an applied accept, in one update: IDLE as the new occupant. -/
theorem accepted_idle (s : State) (p : Port) :
    s.accepted p none =
      s.updPort p fun r =>
        { r with
          occ := { r.occ with occupant := none, offer := none, disposition := none, acceptStatus := .accepted }
          unit := { r.unit with intp := r.unit.intp &&& ~~~Cause.offer.mask } } := by
  rw [State.accepted, State.occupied, State.updOcc, settlePort, State.updPort_updPort]
  rfl

/-- A task as the new occupant, resumed. -/
theorem accepted_task (s : State) (p : Port) (y : Slot) :
    s.accepted p (some y) =
      (resumeTask y s).updPort p fun r =>
        { r with
          occ := { r.occ with occupant := some y, offer := none, disposition := none, acceptStatus := .accepted }
          unit := { r.unit with intp := r.unit.intp &&& ~~~Cause.offer.mask } } := by
  have swap : s.occupied p (some y) = (resumeTask y s).updOcc p fun o => { o with occupant := some y } := by
    rw [State.occupied, resumeTask, State.updOcc, State.updPort_updTask]
    rfl
  rw [State.accepted, swap, State.updOcc, settlePort, State.updPort_updPort]
  rfl

/-- Settles O33: the port is settled with its new occupant, then the old one becomes what its disposition says. -/
theorem acceptOfASwitchOffer : Obligations.AcceptOfASwitchOffer := by
  intro p s o released running ready offer switch resumed settled
  have settled_eq : s.accepted p o.incoming = settled := by
    simp only [settled, resumed]
    cases o.incoming with
    | none => exact accepted_idle s p
    | some y => exact accepted_task s p y
  rw [exec_accept released running, takeAccept_switch ready offer switch, acceptSwitch_eq, settled_eq]
  refine ⟨fun idle => by rw [idle], fun x occupied => ?_⟩
  rw [occupied]
  intro d
  have becomes (e : Option Disposition) (disposed : d = e) :
      applyDisposition x (s.port p).occ.disposition settled = applyDisposition x e settled := disposed ▸ rfl
  exact ⟨fun e => congrArg _ (becomes _ e), fun e => congrArg _ (becomes _ e), fun e => congrArg _ (becomes _ e),
    fun e => congrArg _ (becomes _ e), fun e => congrArg _ (becomes _ e)⟩

/-- Settles O34: the occupant stays, and a RUNNING one is RUNNING as before. -/
theorem acceptOfAContinueOffer : Obligations.AcceptOfAContinueOffer := by
  intro p s o released running ready offer continues settled
  rw [exec_accept released running, takeAccept_continue ready offer continues]
  refine ⟨fun idle => by simp only [acceptContinue, idle]; rfl, fun x occupied is_running => ?_⟩
  have resumed : resumeTask x s = s.updTask x fun r => { r with remaining := r.quantum, delivery := none } :=
    State.updTask_congr (by rw [← is_running])
  simp only [acceptContinue, occupied, resumed]
  rfl

end

end Sys2Proof.Machine

/-! ## Each law of the objects by itself (R73, R79, R81, R97, R112, R113, R130)

The laws of the exchanges, of the cell pool, of the lines and of the Tick Unit, each kept whatever the others. -/

namespace Sys2Proof.Machine

/-- Of the laws of the cell pool, the lines and the Tick Unit the second state meets each that the first meets. -/
structure KeepsPools (s u : State) : Prop where
  cells : s.CellLaw → u.CellLaw
  lines : (∀ l, (s.line l).Lawful) → ∀ l, (u.line l).Lawful
  ticks : s.time.Bounded → u.time.Bounded

/-- And of the exchanges, which refill leaves unlawful between its rounds (R89). -/
structure KeepsLaws (s u : State) : Prop extends KeepsPools s u where
  exchanges : (∀ x, (s.exchange x).state.Lawful) → ∀ x, (u.exchange x).state.Lawful

section
variable {s u a b c : State} {p : Port} {t : Slot} {y : Fin 16} {k : WaitKind}

theorem KeepsPools.refl (s : State) : KeepsPools s s := ⟨id, id, id⟩

theorem KeepsPools.trans (h : KeepsPools a b) (k : KeepsPools b c) : KeepsPools a c :=
  ⟨k.cells ∘ h.cells, k.lines ∘ h.lines, k.ticks ∘ h.ticks⟩

theorem KeepsLaws.refl (s : State) : KeepsLaws s s := ⟨.refl s, id⟩

theorem KeepsLaws.trans (h : KeepsLaws a b) (k : KeepsLaws b c) : KeepsLaws a c :=
  ⟨h.toKeepsPools.trans k.toKeepsPools, k.exchanges ∘ h.exchanges⟩

/-- A state that meets every law meets these. -/
theorem State.Lawful.keepsLaws (h : u.Lawful) : KeepsLaws s u :=
  ⟨⟨fun _ => h.cells, fun _ => h.lines, fun _ => h.ticks⟩, fun _ => h.exchanges⟩

/-! ### What leaves the objects, and what shortens their lists -/

theorem KeepsLaws.of_fields (exchanges : u.exchanges = s.exchanges) (freeCells : u.freeCells = s.freeCells) (lines : u.lines = s.lines)
    (ticks : s.time.Bounded → u.time.Bounded) : KeepsLaws s u :=
  ⟨⟨fun h => by simpa only [State.CellLaw, State.reservedCells, exchanges, freeCells] using h,
    fun h => by simpa only [State.line, lines] using h, ticks⟩, fun h => by simpa only [State.exchange, exchanges] using h⟩

theorem ObjectsKept.keepsLaws (h : ObjectsKept s u) : KeepsLaws s u :=
  .of_fields h.exchanges h.freeCells h.lines fun b => h.time ▸ b

theorem ObjectFrame.keepsLaws (h : ObjectFrame s u) : KeepsLaws s u :=
  ⟨⟨h.cellLaw, fun k _ => h.lineLaw (k _), h.ticks⟩, h.exchangesLawful⟩

theorem WaitFrame.keepsLaws (h : WaitFrame s u) : KeepsLaws s u := h.objects.keepsLaws

theorem DispatchFrame.keepsLaws (h : DispatchFrame s u) : KeepsLaws s u := h.toObject.keepsLaws

theorem KeepsLaws.updTask (s : State) (t : Slot) (f : TaskRecord → TaskRecord) : KeepsLaws s (s.updTask t f) :=
  (ObjectsKept.updTask s t f).keepsLaws

theorem KeepsLaws.updPort (s : State) (p : Port) (f : PortRecord → PortRecord) : KeepsLaws s (s.updPort p f) :=
  (ObjectsKept.updPort s p f).keepsLaws

theorem KeepsLaws.updOcc (s : State) (p : Port) (f : Occupancy → Occupancy) : KeepsLaws s (s.updOcc p f) := .updPort s p _

theorem KeepsLaws.setDisposition (s : State) (p : Port) (d : Disposition) : KeepsLaws s (s.setDisposition p d) :=
  (ObjectsKept.setDisposition s p d).keepsLaws

theorem KeepsLaws.redecide (p : Port) (gone : Bool) (s : State) : KeepsLaws s (redecide p gone s) :=
  (redecide_frame p gone s).keepsLaws

theorem KeepsLaws.updPool (s : State) (f : PagePool → PagePool) : KeepsLaws s (s.updPool f) := .of_fields rfl rfl rfl id

theorem KeepsLaws.setTime (s : State) {v : TickUnit} (ticks : s.time.Bounded → v.Bounded) : KeepsLaws s { s with time := v } :=
  .of_fields rfl rfl rfl ticks

theorem KeepsLaws.draw (s : State) (n : Nat) : KeepsLaws s { s with draws := n } := .of_fields rfl rfl rfl id

theorem serve_keepsLaws (s : State) : KeepsLaws s (serve s) := (serve_frame s).1.keepsLaws

/-! ### What changes one object -/

theorem KeepsLaws.setLines {v : Vector LineRecord 8} (lawful : ∀ l : Line, (s.line l).Lawful → v[l].Lawful) :
    KeepsLaws s { s with lines := v } :=
  ⟨⟨id, fun h l => lawful l (h l), id⟩, id⟩

theorem KeepsLaws.updLine {l : Line} {f : LineRecord → LineRecord} (lawful : (s.line l).Lawful → (f (s.line l)).Lawful) :
    KeepsLaws s (s.updLine l f) := by
  refine .setLines fun m h => ?_
  show ((s.updLine l f).line m).Lawful
  rw [State.updLine_line]
  split
  · next same => subst same; exact lawful h
  · exact h

/-- An exchange that holds something else and reserves as many cells. -/
theorem KeepsPools.setExchange {e : ExchangeState} (cells : e.cells = (s.exchange y).state.cells) : KeepsPools s (s.setExchange y e) :=
  ⟨fun h => h.setExchange cells, id, id⟩

theorem State.setExchange_lawful {e : ExchangeState} (h : ∀ x, (s.exchange x).state.Lawful) (lawful : e.Lawful) (x : Fin 16) :
    ((s.setExchange y e).exchange x).state.Lawful := by
  rw [State.setExchange_state]
  split
  · exact lawful
  · exact h x

theorem KeepsLaws.setExchange {e : ExchangeState} (cells : e.cells = (s.exchange y).state.cells)
    (lawful : (s.exchange y).state.Lawful → e.Lawful) : KeepsLaws s (s.setExchange y e) :=
  ⟨.setExchange cells, fun h => State.setExchange_lawful h (lawful (h y))⟩

/-! ### What puts an entry into a list, or takes a new position in it -/

/-- May a task wait in the list? Senders wait at a full queue, acquirers at a count of 0, waiters of a line at a latch of 0
(R81, R97, R130). -/
def State.Admits (s : State) : WaitList → Prop
  | .senders x => ∀ o b, (s.exchange x).state = .message o b → b.capacity ≤ b.queue.length
  | .acquirers x => ∀ o c, (s.exchange x).state = .count o c → c.count = 0
  | .line l => (s.line l).latch = 0
  | .receivers _ | .pages => True

/-- Lists of waiters may change, where entries stand only in a list that had some or that admits them. -/
theorem ListsOnly.keepsLaws (only : ListsOnly s u) (admits : ∀ l, u.entries l ≠ [] → s.entries l ≠ [] ∨ s.Admits l) : KeepsLaws s u where
  cells h := h.relist only.freeCells only.exchange
  lines h l := by
    rw [only.line l]
    exact ⟨(h l).1, fun ne => (admits (.line l) ne).elim (h l).2 id⟩
  ticks h := by rw [only.time]; exact h
  exchanges h x := by
    refine (only.exchange x).lawful (h x) (fun ne o b e => ?_) fun ne o c e => ?_
    · refine (admits (.senders x) ne).elim (fun some => (h x).full some e) fun full => le_antisymm ?_ (full o b e)
      obtain ⟨-, -, length, -⟩ : ExchangeState.Lawful (.message o b) := e ▸ h x
      exact length
    · exact (admits (.acquirers x) ne).elim (fun some => (h x).empty some e) fun zero => zero o c e

theorem repositionWaiter_keepsLaws (t : Slot) (s : State) : KeepsLaws s (repositionWaiter t s) := by
  obtain ⟨only, perm, -⟩ := repositionWaiter_spec t s
  exact only.keepsLaws fun l ne => .inl fun e => ne (List.perm_nil.1 (e ▸ perm l))

theorem joinList_keepsLaws (admits : ∀ l, k.list = some l → s.Admits l) (t : Slot) : KeepsLaws s (joinList t k s) := by
  refine (joinList_listsOnly t k s).keepsLaws fun l ne => ?_
  by_cases here : k.list = some l
  · exact .inr (admits l here)
  · exact .inl (joinList_entries_ne t s here ▸ ne)

theorem insertTimer_keepsLaws (t : Slot) (d : Option TickCount) (s : State) : KeepsLaws s (insertTimer t d s) := by
  cases d with
  | none => exact .refl s
  | some d => exact .setTime s id

/-- A wait is begun in a list that admits it (R51). -/
theorem beginWait_keepsLaws (admits : ∀ l, k.list = some l → s.Admits l) (p : Port) (x : Slot) (d : Option TickCount) :
    KeepsLaws s (beginWait p x k d s) := by
  have joins : KeepsLaws (s.updTask x fun r => { r with wait := some ⟨k, d⟩, delivery := none }) _ :=
    joinList_keepsLaws (k := k) (fun l here => by
      have := admits l here
      cases l <;> exact this) x
  exact ((((KeepsLaws.updTask s x _).trans joins).trans (insertTimer_keepsLaws _ _ _)).trans (.setDisposition _ _ _)).trans
    (.redecide _ _ _)

theorem waitOr_keepsLaws (admits : ∀ l, k.list = some l → s.Admits l) (refusal : Result) (p : Port) (caller : Option Slot)
    (d : Option TickCount) : KeepsLaws s (waitOr refusal p caller k d s).state := by
  cases caller with
  | none => exact .refl s
  | some x => exact beginWait_keepsLaws admits p x d

/-! ### MSG.SEND, CNT.ACQUIRE and CNT.RELEASE (R85, R101, R102) -/

theorem handMessage_keepsLaws (y : Fin 16) (t : Slot) (m : Message) (s : State) : KeepsLaws s (handMessage y t m s) :=
  (handMessage_objects y t m s).keepsLaws

theorem sendMessage_keepsLaws {id : Byte} (named : s.namedExchange id = .ok y) (p : Port) (caller : Option Slot)
    (d : Option TickCount) (m : Message) : KeepsLaws s (sendMessage p caller d id y m s).state := by
  obtain ⟨-, index, -⟩ := namedExchange_ok named
  cases box : s.mailbox y with
  | none => simpa only [sendMessage, box] using .refl s
  | some b =>
    obtain ⟨o, e⟩ := State.mailbox_eq_some.1 box
    cases found : s.matchingReceiver b m.tag with
    | some r => simpa only [sendMessage, box, found, done_state] using handMessage_keepsLaws y r m s
    | none =>
      simp only [sendMessage, box, found]
      split
      · next room =>
        rw [done_state, queueMessage_eq e]
        refine .setExchange (by rw [e]; rfl) ?_
        rw [e]
        rintro ⟨low, high, length, full⟩
        exact ⟨low, high, by rw [List.length_append]; exact room, fun ne => absurd (full ne) (Nat.ne_of_lt room)⟩
      · next no_room =>
        refine waitOr_keepsLaws (fun l here => ?_) _ _ _ _
        simp only [WaitKind.list, index, Option.map_some, Option.some.injEq] at here
        subst here
        intro o' b' e'
        cases e.symm.trans e'
        exact Nat.le_of_not_lt no_room

theorem acquireUnit_keepsLaws {id : Byte} (named : s.namedExchange id = .ok y) (p : Port) (caller : Option Slot)
    (d : Option TickCount) : KeepsLaws s (acquireUnit p caller d id y s).state := by
  obtain ⟨-, index, -⟩ := namedExchange_ok named
  cases e : (s.exchange y).state with
  | closed => simpa only [acquireUnit, e] using .refl s
  | message o b => simpa only [acquireUnit, e] using .refl s
  | count o c =>
    simp only [acquireUnit, e]
    split
    · next units =>
      rw [done_state, updCounter_of_count e]
      refine .setExchange (by rw [e]; rfl) ?_
      rw [e]
      rintro ⟨low, high, le, zero⟩
      exact ⟨low, high, (Nat.sub_le ..).trans le, fun ne => absurd (zero ne) (Nat.ne_of_gt units)⟩
    · next no_units =>
      refine waitOr_keepsLaws (fun l here => ?_) _ _ _ _
      simp only [WaitKind.list, index, Option.map_some, Option.some.injEq] at here
      subst here
      intro o' c' e'
      cases e.symm.trans e'
      exact Nat.eq_zero_of_not_pos no_units

theorem releaseUnit_keepsLaws (y : Fin 16) (s : State) : KeepsLaws s (releaseUnit y s).state := by
  cases e : (s.exchange y).state with
  | closed => simpa only [releaseUnit, e] using .refl s
  | message o b => simpa only [releaseUnit, e] using .refl s
  | count o c =>
    cases queue : c.acquirers with
    | cons t rest =>
      simp only [releaseUnit, e, queue, done_state]
      refine KeepsLaws.trans ?_ (endWait_frame t _ _).keepsLaws
      rw [updCounter_of_count e]
      refine .setExchange (by rw [e]; rfl) ?_
      rw [e]
      rintro ⟨low, high, le, zero⟩
      exact ⟨low, high, le, fun _ => zero (by rw [queue]; exact List.cons_ne_nil _ _)⟩
    | nil =>
      simp only [releaseUnit, e, queue]
      split
      · next room =>
        rw [done_state, updCounter_of_count e]
        refine .setExchange (by rw [e]; rfl) ?_
        rw [e]
        rintro ⟨low, high, -, -⟩
        exact ⟨low, high, room, fun ne => absurd queue ne⟩
      · exact .refl s

/-! ### MSG.RECV and refill (R88, R89) -/

/-- The exchanges between two rounds of refill: at the one that is refilled senders may wait though its queue is not full. -/
structure State.Refilling (s : State) (y : Fin 16) : Prop where
  others : ∀ z, z ≠ y → (s.exchange z).state.Lawful
  box : ∃ o b, (s.exchange y).state = .message o b ∧ 1 ≤ b.capacity ∧ b.capacity ≤ 16 ∧ b.queue.length ≤ b.capacity

theorem State.Refilling.lawful (h : s.Refilling y)
    (filled : ∀ o b, (s.exchange y).state = .message o b → b.senders ≠ [] → b.queue.length = b.capacity) (z : Fin 16) :
    (s.exchange z).state.Lawful := by
  by_cases e : z = y
  · obtain ⟨o, b, state, low, high, length⟩ := h.box
    rw [e, state]
    exact ⟨low, high, length, filled o b state⟩
  · exact h.others z e

theorem ObjectFrame.refilling (frame : ObjectFrame s u) (h : s.Refilling y) : u.Refilling y where
  others z ne := (frame.exchange z).lawful (h.others z ne)
  box := by
    obtain ⟨o, b, state, bounds⟩ := h.box
    obtain ⟨r, q, state', -⟩ := (frame.exchange y).message state
    exact ⟨o, _, state', bounds⟩

/-- Another queue within the capacity. -/
theorem State.Refilling.requeue (h : s.Refilling y) {o : WaiterOrder} {b : Mailbox} (e : (s.exchange y).state = .message o b)
    {q : List Message} (length : q.length ≤ b.capacity) : (s.setExchange y (.message o { b with queue := q })).Refilling y where
  others z ne := by rw [State.setExchange_state, if_neg ne.symm]; exact h.others z ne
  box := by
    obtain ⟨o', b', e', low, high, -⟩ := h.box
    cases e.symm.trans e'
    exact ⟨o, _, (s.setExchange_state y y _).trans (if_pos rfl), low, high, length⟩

/-- The head sender leaves, and its wait ends. -/
theorem takeSender_objects {o : WaiterOrder} {b : Mailbox} (e : (s.exchange y).state = .message o b) {rest : List Slot}
    (senders : b.senders = t :: rest) :
    ObjectFrame s (endWait t (.ok .none) (s.updMailbox y fun b => { b with senders := rest })) := by
  refine ObjectFrame.trans ?_ (endWait_frame t _ _).objects
  rw [updMailbox_of_message e]
  refine (setExchange_frame s y _ ?_).objects
  rw [e]
  exact ⟨_, _, rfl, .refl _, by rw [senders]; exact List.sublist_cons_self _ _⟩

/-- The message goes to a receiver, or to the queue, which has room for it. -/
theorem deliverOrQueue_refilling {o : WaiterOrder} {b : Mailbox} (e : (s.exchange y).state = .message o b)
    (room : b.queue.length < b.capacity) (m : Message) :
    KeepsPools s (deliverOrQueue y m s) ∧ (s.Refilling y → (deliverOrQueue y m s).Refilling y) := by
  unfold deliverOrQueue
  rw [State.mailbox_eq_some.2 ⟨o, e⟩, Option.bind_some]
  cases s.matchingReceiver b m.tag with
  | some r => exact ⟨(handMessage_keepsLaws y r m s).toKeepsPools, (handMessage_objects y r m s).refilling⟩
  | none =>
    simp only [queueMessage_eq e]
    exact ⟨.setExchange (by rw [e]; rfl), fun h => h.requeue e (by rw [List.length_append]; exact room)⟩

/-- The end of refill: the queue is full or no sender is left. -/
theorem refillRounds_keepsLaws (n : Nat) : ∀ s : State, KeepsPools s (refillRounds n y s) ∧
    (s.Refilling y → (s.exchange y).state.senders.length ≤ n → ∀ x, ((refillRounds n y s).exchange x).state.Lawful) := by
  induction n with
  | zero =>
    intro s
    refine ⟨.refl s, fun h length => h.lawful fun o b e ne => absurd ?_ ne⟩
    rw [e] at length
    exact List.length_eq_zero_iff.1 (Nat.le_zero.1 length)
  | succ n ih =>
    intro s
    cases box : s.mailbox y with
    | none =>
      simp only [refillRounds, box]
      refine ⟨.refl s, fun h _ => ?_⟩
      obtain ⟨o, b, e, -⟩ := h.box
      rw [State.mailbox_eq_some.2 ⟨o, e⟩] at box
      cases box
    | some b =>
      obtain ⟨o, e⟩ := State.mailbox_eq_some.1 box
      by_cases room : b.queue.length < b.capacity
      · cases senders : b.senders with
        | nil =>
          simp only [refillRounds, box, if_pos room, senders]
          exact ⟨.refl s, fun h _ => h.lawful fun o' b' e' ne => absurd (by cases e.symm.trans e'; exact senders) ne⟩
        | cons t rest =>
          simp only [refillRounds, box, if_pos room, senders]
          have frame := takeSender_objects e senders
          obtain ⟨r, q, e₁, -⟩ := (frame.exchange y).message e
          have left (length : (s.exchange y).state.senders.length ≤ n + 1) :
              ((endWait t (.ok .none) (s.updMailbox y fun b => { b with senders := rest })).exchange y).state.senders.length ≤ n := by
            refine (endWait_senders t _ _ y).length_le.trans ?_
            rw [show ((s.updMailbox y fun b => { b with senders := rest }).exchange y).state.senders = rest from
              updMailbox_entries_senders (f := fun b => { b with senders := rest }) e]
            rw [e, show ExchangeState.senders (.message o b) = b.senders from rfl, senders, List.length_cons] at length
            omega
          have taken := frame.keepsLaws.toKeepsPools
          cases s.heldMessage t with
          | none =>
            obtain ⟨pools, lawful⟩ := ih (endWait t (.ok .none) (s.updMailbox y fun b => { b with senders := rest }))
            exact ⟨taken.trans pools, fun h length => lawful (frame.refilling h) (left length)⟩
          | some m =>
            obtain ⟨sent, goes_on⟩ := deliverOrQueue_refilling e₁ room m
            obtain ⟨pools, lawful⟩ := ih
              (deliverOrQueue y m (endWait t (.ok .none) (s.updMailbox y fun b => { b with senders := rest })))
            exact ⟨(taken.trans sent).trans pools, fun h length => lawful (goes_on (frame.refilling h))
              ((deliverOrQueue_senders y m _).length_le.trans (left length))⟩
      · simp only [refillRounds, box, if_neg room]
        refine ⟨.refl s, fun h _ => h.lawful fun o' b' e' _ => ?_⟩
        obtain ⟨o'', b'', e'', -, -, length⟩ := h.box
        cases e.symm.trans e'
        cases e.symm.trans e''
        omega

theorem refill_keepsLaws (y : Fin 16) (s : State) : KeepsPools s (refill y s) ∧
    (s.Refilling y → ∀ x, ((refill y s).exchange x).state.Lawful) := by
  obtain ⟨pools, lawful⟩ := refillRounds_keepsLaws (y := y) ((s.mailbox y).elim 0 fun b => b.senders.length) s
  refine ⟨pools, fun h => lawful h ?_⟩
  obtain ⟨o, b, e, -⟩ := h.box
  rw [State.mailbox_eq_some.2 ⟨o, e⟩, e]
  exact le_rfl

theorem receiveMessage_keepsLaws {id : Byte} (named : s.namedExchange id = .ok y) (p : Port) (caller : Option Slot)
    (d : Option TickCount) (low high : Byte) : KeepsLaws s (receiveMessage p caller d id low high y s).state := by
  obtain ⟨-, index, -⟩ := namedExchange_ok named
  cases box : s.mailbox y with
  | none => simpa only [receiveMessage, box] using .refl s
  | some b =>
    obtain ⟨o, e⟩ := State.mailbox_eq_some.1 box
    cases found : b.queue.find? fun m => tagInRange low high m.tag with
    | some m =>
      simp only [receiveMessage, box, found, done_state]
      rw [updMailbox_of_message e]
      obtain ⟨pools, lawful⟩ := refill_keepsLaws y
        (s.setExchange y (.message o { b with queue := b.queue.eraseP fun m => tagInRange low high m.tag }))
      refine ⟨(KeepsPools.setExchange (by rw [e]; rfl)).trans pools, fun h => lawful ?_⟩
      obtain ⟨one, sixteen, length, -⟩ : ExchangeState.Lawful (.message o b) := e ▸ h y
      exact State.Refilling.requeue ⟨fun z _ => h z, o, b, e, one, sixteen, length⟩ e (List.eraseP_sublist.length_le.trans length)
    | none =>
      simp only [receiveMessage, box, found]
      refine waitOr_keepsLaws (fun l here => ?_) _ _ _ _
      simp only [WaitKind.list, index, Option.map_some, Option.some.injEq] at here
      subst here
      trivial

/-! ### XCH.OPEN and XCH.CLOSE (R73 to R75) -/

/-- Cells go from the free number to an exchange, or back. -/
theorem KeepsLaws.moveCells (others : ∀ z, y ≠ z → u.exchange z = s.exchange z)
    (cells : u.freeCells + (u.exchange y).state.cells = s.freeCells + (s.exchange y).state.cells)
    (lawful : (u.exchange y).state.Lawful) (lines : u.lines = s.lines) (time : u.time = s.time) : KeepsLaws s u where
  cells h := by
    have sum := State.reservedCells_change (s := s) (s' := u) (y := y) fun z ne => by rw [others z ne]
    unfold State.CellLaw at h ⊢
    omega
  lines h := by simpa only [State.line, lines] using h
  ticks h := time ▸ h
  exchanges h z := by
    by_cases e : y = z
    · exact e ▸ lawful
    · rw [others z e]; exact h z

theorem openExchange_keepsLaws {e : ExchangeState} {cells : Nat} (lawful : e.Lawful) (reserves : e.cells = cells) (s : State) :
    KeepsLaws s (openExchange e cells s).state := by
  unfold openExchange
  cases found : s.lowestClosed with
  | none => exact .refl s
  | some y =>
    have here := (s.setExchange_state y y e).trans (if_pos rfl)
    simp only
    split
    · exact .refl s
    · next enough =>
      refine .moveCells (y := y) (fun z ne => ?_) ?_ ?_ rfl rfl
      · exact (s.setExchange_exchange y z e).trans (if_neg ne)
      · have closed := lowestClosed_closed found
        show s.freeCells - cells + ((s.setExchange y e).exchange y).state.cells = _
        rw [here, closed, reserves, show ExchangeState.closed.cells = 0 from rfl]
        omega
      · show ((s.setExchange y e).exchange y).state.Lawful
        rw [here]
        exact lawful

theorem closeExchange_keepsLaws (y : Fin 16) (s : State) : KeepsLaws s (closeExchange y s).state := by
  have ended := (endWaits_frame (s.exchange y).state.waiters .closed s).objects
  refine ended.keepsLaws.trans ?_
  generalize hu : (closeExchange y s).state = u
  have exchange (z : Fin 16) : u.exchange z =
      if y = z then ⟨((endWaits (s.exchange y).state.waiters .closed s).exchange y).generation + 1, .closed⟩
      else (endWaits (s.exchange y).state.waiters .closed s).exchange z := by
    subst hu
    simp only [closeExchange, done_state, State.exchange, Fin.getElem_fin, Vector.getElem_set, Fin.ext_iff]
  refine .moveCells (y := y) (fun z ne => (exchange z).trans (if_neg ne)) ?_ ?_ (by subst hu; rfl) (by subst hu; rfl)
  · rw [exchange, if_pos rfl, (ended.exchange y).relists.cells]
    subst hu
    rfl
  · rw [exchange, if_pos rfl]
    trivial

end

end Sys2Proof.Machine

/-! ## Each law of the objects by itself: tasks, lines, time, pages and ports -/

namespace Sys2Proof.Machine

section
variable {s u : State} {p : Port} {t : Slot}

/-! ### TASK.DELETE, TASK.EXIT and TASK.SETPRI (R14 to R16, R19) -/

theorem doom_keepsLaws (p : Port) (t : Slot) (s : State) : KeepsLaws s (doom p t s) := by
  have marked (s : State) : KeepsLaws s ((s.updTask t TaskRecord.doom).setDisposition p .free) :=
    (KeepsLaws.updTask s t _).trans (.setDisposition _ _ _)
  rw [doom_eq]
  split
  · have cancelled := (cancelWait_frame t s).keepsLaws.trans (marked _)
    split
    · exact cancelled.trans (serve_keepsLaws _)
    · exact cancelled
  · exact marked s

theorem deleteTask_keepsLaws (t : Slot) (s : State) : KeepsLaws s (deleteTask t s) := by
  have next : KeepsLaws s (nextGeneration t s) := .updTask s t _
  have retired (wasHead : Bool) (s : State) := (retire_objects t wasHead s).keepsLaws
  unfold deleteTask
  simp only
  split
  case h_1 => exact .refl s
  case h_2 | h_3 => exact next.trans (retired _ _)
  case h_4 => exact (next.trans (unqueue_frame t _).keepsLaws).trans (retired _ _)
  case h_5 =>
    split
    · exact (next.trans (.redecide _ _ _)).trans (retired _ _)
    · exact next.trans (retired _ _)
  case h_6 => exact (next.trans (cancelWait_frame t _).keepsLaws).trans (retired _ _)
  case h_7 =>
    split
    · exact (doom_keepsLaws _ t s).trans (redecideDeleted_frame _ _).keepsLaws
    · exact .refl s

theorem setpriOccupant_keepsLaws (p : Port) (t : Slot) (less : Bool) (s : State) : KeepsLaws s (setpriOccupant p t less s) := by
  unfold setpriOccupant
  split
  case h_1 =>
    split
    · exact .redecide _ _ _
    · exact .refl s
  case h_2 | h_3 => exact (KeepsLaws.setDisposition _ _ _).trans (.redecide _ _ _)
  case h_4 => exact .redecide _ _ _
  case h_5 => exact repositionWaiter_keepsLaws t s
  all_goals exact .refl s

theorem setPriority_keepsLaws (t : Slot) (priority : Fin 32) (s : State) : KeepsLaws s (setPriority t priority s) := by
  have write (s : State) : KeepsLaws s (s.updTask t fun r => { r with priority := priority }) := .updTask s t _
  unfold setPriority
  simp only
  split
  · exact .refl s
  · split
    case h_4 => exact ((unqueue_frame t s).keepsLaws.trans (write _)).trans (readyTail_frame _ _).keepsLaws
    case h_5 =>
      split
      · split
        · exact (write s).trans (.redecide _ _ _)
        · exact write s
      · exact write s
    case h_6 => exact (write s).trans (repositionWaiter_keepsLaws _ _)
    case h_7 =>
      split
      · exact (write s).trans (setpriOccupant_keepsLaws _ _ _ _)
      · exact write s
    all_goals exact write s

/-! ### Lines (R131 to R134) -/

theorem LineRecord.Lawful.latchEvent {r : LineRecord} (h : r.Lawful) (nobody : r.waiters = []) : r.latchEvent.Lawful := by
  unfold LineRecord.latchEvent
  split
  · next room => exact ⟨room, fun ne => absurd nobody ne⟩
  · exact h

theorem takeLineEvent_keepsLaws (l : Line) (s : State) : KeepsLaws s (takeLineEvent l s) := by
  unfold takeLineEvent
  simp only
  split
  · next nobody => exact .updLine fun h => h.latchEvent nobody
  · next t rest queue =>
    have some_wait : (s.line l).waiters ≠ [] := by rw [queue]; exact List.cons_ne_nil _ _
    split
    · exact (KeepsLaws.updLine fun h => ⟨h.1, fun _ => h.2 some_wait⟩).trans (endWait_frame _ _ _).keepsLaws
    · exact (KeepsLaws.updLine fun h => ⟨h.1, fun _ => h.2 some_wait⟩).trans (endWaits_frame _ _ _).keepsLaws

theorem recogniseEdge_keepsLaws (l : Line) (e : Edge) (s : State) : KeepsLaws s (recogniseEdge l e s) := by
  have recognised : KeepsLaws s (s.updLine l fun r => { r with sampled := true, settled := edgeLevel e, pendingCount := false }) :=
    .updLine fun h => ⟨h.1, h.2⟩
  unfold recogniseEdge
  simp only
  split
  · exact recognised.trans (takeLineEvent_keepsLaws _ _)
  · exact recognised

theorem recogniseEdges_keepsLaws (es : List (Line × Edge)) : ∀ s : State, KeepsLaws s (es.foldl (fun s e => recogniseEdge e.1 e.2 s) s) := by
  induction es with
  | nil => exact fun s => .refl s
  | cons e es ih => exact fun s => (recogniseEdge_keepsLaws e.1 e.2 s).trans (ih _)

theorem LineRecord.Lawful.sample {r : LineRecord} (h : r.Lawful) (level : Bool) : (r.sample level).Lawful := by
  obtain ⟨waiters, latch⟩ := r.sample_spec level
  rw [LineRecord.Lawful, waiters, latch]
  exact h

theorem sampleQuietLines_keepsLaws (levels : Byte) (s : State) : KeepsLaws s (sampleQuietLines levels s) := by
  refine .setLines fun l h => ?_
  simp only [Fin.getElem_fin, Vector.getElem_ofFn]
  split
  · exact h
  · exact h.sample _

theorem sampleLines_keepsLaws (levels : Byte) (s : State) : KeepsLaws s (sampleLines levels s) := by
  have quiet := sampleQuietLines_keepsLaws levels s
  unfold sampleLines
  simp only
  split
  · exact quiet
  · exact quiet.trans (recogniseEdge_keepsLaws _ _ _)
  · exact (quiet.trans (.draw _ _)).trans (recogniseEdges_keepsLaws _ _)

/-! ### Time (R112, R113, R118 to R125) -/

theorem expire_keepsLaws (t : Slot) (s : State) : KeepsLaws s (expire t s) := by
  unfold expire
  split
  · simp only
    split
    · exact (endWait_frame _ _ _).keepsLaws.trans (serve_keepsLaws _)
    · exact (endWait_frame _ _ _).keepsLaws
  · exact .refl s

theorem expireAll_keepsLaws (due : List Slot) : ∀ s : State, KeepsLaws s (due.foldl (fun s t => expire t s) s) := by
  induction due with
  | nil => exact fun s => .refl s
  | cons t due ih => exact fun s => (expire_keepsLaws t s).trans (ih _)

theorem countQuanta_keepsLaws (s : State) : KeepsLaws s (countQuanta s) := by
  have count (p : Port) (s : State) := (countQuantum_objectsKept p s).keepsLaws
  unfold countQuanta
  simp only
  split
  · split
    · exact ((KeepsLaws.draw s _).trans (count .B _)).trans (count .A _)
    · exact ((KeepsLaws.draw s _).trans (count .A _)).trans (count .B _)
  · exact (count .A _).trans (count .B _)

/-- The period that begins counts from 0 to the stored N. -/
theorem startPeriod_keepsLaws (s : State) : KeepsLaws s (startPeriod s) :=
  .setTime s fun ⟨low, high, _⟩ => ⟨low, high, low, high, Nat.zero_lt_succ _, low⟩

theorem tickWhole_keepsLaws (s : State) : KeepsLaws s (tickWhole s) :=
  ((startPeriod_keepsLaws s).trans (expireAll_keepsLaws _ _)).trans (countQuanta_keepsLaws _)

theorem clkPeriod_keepsLaws (s : State) : KeepsLaws s (clkPeriod s) := by
  unfold clkPeriod
  split
  · exact .refl s
  · split
    · next lt => exact .setTime s fun ⟨low, high, periodLow, periodHigh, _, interval⟩ => ⟨low, high, periodLow, periodHigh, lt, interval⟩
    · split
      · next lt => exact .setTime s fun ⟨low, high, periodLow, periodHigh, _⟩ => ⟨low, high, periodLow, periodHigh, Nat.zero_lt_succ _, lt⟩
      · exact tickWhole_keepsLaws s

/-! ### Pages (R148, R153, R155) -/

theorem allocate_keepsLaws (p : Port) (x : Slot) (n : Nat) (option : Byte) (d : Option TickCount) (s : State) :
    KeepsLaws s (allocate p x n option d s).state := by
  unfold allocate
  split
  · exact .updPool s _
  · split
    · exact .refl s
    · exact beginWait_keepsLaws (fun l here => by cases here; trivial) p x d

theorem removeAndServe_keepsLaws (e : Fin 64) (s : State) : KeepsLaws s (removeAndServe e s).1 :=
  (KeepsLaws.updPool s _).trans (serve_keepsLaws _)

/-! ### Accept, PORT.ENABLE and port loss (R62 to R65, R178, R180, R181) -/

theorem accepted_keepsLaws (p : Port) (y : Option Slot) (s : State) : KeepsLaws s (s.accepted p y) := by
  have occupied : KeepsLaws s (s.occupied p y) := by
    cases y with
    | none => exact .updOcc s p fun o => { o with occupant := none }
    | some t => exact (KeepsLaws.updOcc s p fun o => { o with occupant := some t }).trans (.updTask _ t TaskRecord.resume)
  exact occupied.trans (.updPort _ p fun r =>
    PortRecord.clear .offer { r with occ := { r.occ with offer := none, disposition := none, acceptStatus := .accepted } })

theorem applyDisposition_keepsLaws (x : Slot) (d : Option Disposition) (s : State) : KeepsLaws s (applyDisposition x d s) := by
  unfold applyDisposition
  split
  · exact (readyHead_frame x s).keepsLaws
  · exact (readyTail_frame x s).keepsLaws
  · exact .updTask s x _
  · exact .updTask s x _
  · exact (retire_objects x false s).keepsLaws
  · exact .refl s
  · exact .refl s

theorem takeAccept_keepsLaws (p : Port) (v : Byte) (s : State) : KeepsLaws s (takeAccept p v s) := by
  have refused (a : AcceptStatus) : KeepsLaws s (setAcceptStatus p a s) := .updOcc s p _
  unfold takeAccept
  split
  · exact refused _
  · split
    · exact refused _
    · split
      · exact refused _
      · split
        · rw [acceptSwitch_eq]
          split
          · exact (accepted_keepsLaws p _ s).trans (applyDisposition_keepsLaws _ _ _)
          · exact accepted_keepsLaws p _ s
        · rw [acceptContinue_eq]
          exact accepted_keepsLaws p _ s

theorem enablePort_keepsLaws (p : Port) (s : State) : KeepsLaws s (enablePort p s) :=
  ((KeepsLaws.updPort s p _).trans (.redecide _ _ _)).trans (.updPort _ _ _)

theorem loseOccupant_keepsLaws (x : Slot) (d : Option Disposition) (s : State) : KeepsLaws s (loseOccupant x d s) := by
  by_cases h : d = some .wait
  · rw [h, loseOccupant_wait]
    exact (cancelWait_frame x s).keepsLaws.trans (.updTask _ _ _)
  · rw [loseOccupant_other x s h]
    exact .updTask _ _ _

theorem endLoss_keepsLaws (q : Port) (on : Bool) (offer : Option Offer) (must : Bool) (s : State) : KeepsLaws s (endLoss q on offer must s) := by
  have raised : KeepsLaws s (if on then s.raise q .peerDown else s) := by
    split
    · exact .updPort s q _
    · exact .refl s
  have served (u : State) (h : KeepsLaws s u) : KeepsLaws s (if must then serve u else u) := by
    split
    · exact h.trans (serve_keepsLaws _)
    · exact h
  unfold endLoss
  simp only
  refine served _ ?_
  split
  · split
    · exact raised.trans (displace_frame _ _).keepsLaws
    · exact raised
  · exact raised

theorem losePortWhole_keepsLaws (p : Port) (s : State) : KeepsLaws s (losePortWhole p s) := by
  have shut : KeepsLaws s (shutPort p s) := .updPort s p _
  rw [losePortWhole_eq]
  split
  · exact shut.trans (endLoss_keepsLaws _ _ _ _ _)
  · next x _ =>
    split
    · exact (shut.trans (freeSlot_objects x _).keepsLaws).trans (endLoss_keepsLaws _ _ _ _ _)
    · exact (shut.trans (loseOccupant_keepsLaws x _ _)).trans (endLoss_keepsLaws _ _ _ _ _)

end

end Sys2Proof.Machine

/-! ## Each law of the objects by itself: every row (R168, R169) -/

namespace Sys2Proof.Machine

/-- What comes of a row meets each law of the objects that the state before meets. -/
def KeepingLaws (s : State) (o : Host.Outcome State Fault Refusal) : Prop := ∀ u, o = .next u → KeepsLaws s u

section
variable {s u : State} {p : Port} {t : Slot}

theorem keepingLaws_next (h : KeepsLaws s u) : KeepingLaws s (.next u) := fun _ e => by cases e; exact h

/-! ### The checks and the completion (R165, R169) -/

theorem complete_keepsLaws (p : Port) (r : Reply) : KeepsLaws r.state (complete p r) :=
  (KeepsLaws.updPort r.state p _).trans (.updPort _ p _)

theorem done_keepsLaws (h : KeepsLaws s u) (bytes : List Byte) : KeepsLaws s (done bytes u).state := h

theorem refuse_keepsLaws (r : Result) (s : State) : KeepsLaws s (refuse r s).state := .refl s

theorem take_keepsLaws {c : CommandCode} {k : List Byte → State → State} (keeps : ∀ params, KeepsLaws s (k params s)) :
    KeepingLaws s (take p c k s) := by
  unfold take
  split
  · exact keepingLaws_next (.refl s)
  · split
    · exact keepingLaws_next (keeps _)
    · exact keepingLaws_next (.refl s)

theorem command_keepsLaws {c : CommandCode} {body : List Byte → State → Reply} (keeps : ∀ params, KeepsLaws s (body params s).state) :
    KeepingLaws s (command p c body s) :=
  take_keepsLaws fun params => (keeps params).trans (complete_keepsLaws p _)

theorem withCaller_keepsLaws {k : Slot → Reply} (keeps : ∀ x, KeepsLaws s (k x).state) : KeepsLaws s (withCaller p s k).state := by
  unfold withCaller
  split
  · exact refuse_keepsLaws _ s
  · exact keeps _

theorem withWaiter_keepsLaws {k : Option Slot → Reply} (option : Byte) (keeps : ∀ caller, KeepsLaws s (k caller).state) :
    KeepsLaws s (withWaiter p option s k).state := by
  unfold withWaiter
  split
  · exact withCaller_keepsLaws fun x => keeps _
  · exact keeps none

theorem withTask_keepsLaws {k : Slot → Reply} (v : Half) (keeps : ∀ t, KeepsLaws s (k t).state) :
    KeepsLaws s (withTask v s k).state := by
  unfold withTask
  split
  · exact refuse_keepsLaws _ s
  · exact keeps _

theorem withExchange_keepsLaws {k : Fin 16 → Reply} (id : Byte) (keeps : ∀ y, s.namedExchange id = .ok y → KeepsLaws s (k y).state) :
    KeepsLaws s (withExchange id s k).state := by
  unfold withExchange
  cases e : s.namedExchange id with
  | error r => exact refuse_keepsLaws r s
  | ok y => exact keeps y e

/-! ### The task commands (R14 to R16, R19, R122) -/

/-- The task commands that leave the objects (O53) keep their laws. -/
theorem keepingLaws_of_objects_left {c : Instr} (left : c ∈ [Instr.taskCreate p, .taskStart p, .taskHold p, .taskRelease p,
    .taskSetaff p, .taskSetctx p, .taskQuery p, .taskSelf p, .taskYield p, .sliceExpiry p]) (s : State) : KeepingLaws s (exec c s) := by
  intro u e
  obtain ⟨exchanges, freeCells, time, lines, -⟩ := taskCommandsLeaveTheObjects p c s u left e
  exact .of_fields exchanges freeCells lines fun h => time ▸ h

theorem execTaskDelete_keepsLaws (p : Port) (s : State) : KeepingLaws s (execTaskDelete p s) := by
  refine command_keepsLaws fun params => ?_
  split
  · exact withTask_keepsLaws _ fun t => deleteTask_keepsLaws t s
  · exact refuse_keepsLaws _ s

theorem execTaskExit_keepsLaws (p : Port) (s : State) : KeepingLaws s (execTaskExit p s) := by
  refine command_keepsLaws fun params => ?_
  split
  · exact withCaller_keepsLaws fun x => (doom_keepsLaws p x s).trans (.redecide _ _ _)
  · exact refuse_keepsLaws _ s

theorem execTaskSetpri_keepsLaws (p : Port) (s : State) : KeepingLaws s (execTaskSetpri p s) := by
  refine command_keepsLaws fun params => ?_
  split
  · split
    · exact refuse_keepsLaws _ s
    · exact withTask_keepsLaws _ fun t => setPriority_keepsLaws t _ s
  · exact refuse_keepsLaws _ s

theorem execTaskDelay_keepsLaws (p : Port) (s : State) : KeepingLaws s (execTaskDelay p s) := by
  refine command_keepsLaws fun params => ?_
  split
  · refine withCaller_keepsLaws fun x => ?_
    split
    · exact refuse_keepsLaws _ s
    · exact beginWait_keepsLaws (fun _ here => by cases here) p x _
  · exact refuse_keepsLaws _ s

/-! ### The exchange commands (R74 to R108) -/

theorem execXchOpen_keepsLaws (p : Port) (s : State) : KeepingLaws s (execXchOpen p s) := by
  refine command_keepsLaws fun params => ?_
  split
  · split
    · exact refuse_keepsLaws _ s
    · split
      · split
        · exact refuse_keepsLaws _ s
        · next range =>
          simp only [not_or, not_lt] at range
          obtain ⟨pos, le, -⟩ := range
          exact openExchange_keepsLaws (e := .message _ _) ⟨one_le_toNat pos, le, Nat.zero_le _, fun ne => absurd rfl ne⟩ rfl s
      · split
        · split
          · exact refuse_keepsLaws _ s
          · next range =>
            simp only [not_or, not_lt] at range
            obtain ⟨pos, le⟩ := range
            exact openExchange_keepsLaws (e := .count _ _)
              ⟨one_le_toNat pos, Nat.le_of_lt_succ (BitVec.isLt _), le, fun ne => absurd rfl ne⟩ rfl s
        · exact refuse_keepsLaws _ s
  · exact refuse_keepsLaws _ s

theorem execXchClose_keepsLaws (p : Port) (s : State) : KeepingLaws s (execXchClose p s) := by
  refine command_keepsLaws fun params => ?_
  split
  · exact withExchange_keepsLaws _ fun y _ => closeExchange_keepsLaws y s
  · exact refuse_keepsLaws _ s

theorem execXchQuery_keepsLaws (p : Port) (s : State) : KeepingLaws s (execXchQuery p s) := by
  refine command_keepsLaws fun params => ?_
  split
  · exact withExchange_keepsLaws _ fun y _ => done_keepsLaws (.refl s) _
  · exact refuse_keepsLaws _ s

theorem execMsgSend_keepsLaws (p : Port) (s : State) : KeepingLaws s (execMsgSend p s) := by
  refine command_keepsLaws fun params => ?_
  split
  · refine withWaiter_keepsLaws _ fun caller => ?_
    split
    · exact refuse_keepsLaws _ s
    · exact withExchange_keepsLaws _ fun y named => sendMessage_keepsLaws named _ _ _ _
  · exact refuse_keepsLaws _ s

theorem execMsgRecv_keepsLaws (p : Port) (s : State) : KeepingLaws s (execMsgRecv p s) := by
  refine command_keepsLaws fun params => ?_
  split
  · refine withWaiter_keepsLaws _ fun caller => ?_
    split
    · exact refuse_keepsLaws _ s
    · exact withExchange_keepsLaws _ fun y named => receiveMessage_keepsLaws named _ _ _ _ _
  · exact refuse_keepsLaws _ s

theorem execCntAcquire_keepsLaws (p : Port) (s : State) : KeepingLaws s (execCntAcquire p s) := by
  refine command_keepsLaws fun params => ?_
  split
  · refine withWaiter_keepsLaws _ fun caller => ?_
    split
    · exact refuse_keepsLaws _ s
    · exact withExchange_keepsLaws _ fun y named => acquireUnit_keepsLaws named _ _ _
  · exact refuse_keepsLaws _ s

theorem execCntRelease_keepsLaws (p : Port) (s : State) : KeepingLaws s (execCntRelease p s) := by
  refine command_keepsLaws fun params => ?_
  split
  · exact withExchange_keepsLaws _ fun y _ => releaseUnit_keepsLaws y s
  · exact refuse_keepsLaws _ s

/-! ### The event lines (R136 to R140) -/

theorem execEvtConfig_keepsLaws (p : Port) (s : State) : KeepingLaws s (execEvtConfig p s) := by
  refine command_keepsLaws fun params => ?_
  split
  · split
    · exact done_keepsLaws (.updLine fun _ => ⟨Nat.zero_le _, fun _ => rfl⟩) _
    · exact refuse_keepsLaws _ s
  · exact refuse_keepsLaws _ s

theorem execEvtWait_keepsLaws (p : Port) (s : State) : KeepingLaws s (execEvtWait p s) := by
  refine command_keepsLaws fun params => ?_
  split
  · refine withWaiter_keepsLaws _ fun caller => ?_
    split
    · exact refuse_keepsLaws _ s
    · split
      · exact refuse_keepsLaws _ s
      · split
        · next latched =>
          exact done_keepsLaws (.updLine fun h =>
            ⟨(Nat.sub_le ..).trans h.1, fun ne => absurd (h.2 ne) (Nat.ne_of_gt latched)⟩) _
        · next unlatched =>
          exact waitOr_keepsLaws (fun _ here => by cases here; exact Nat.eq_zero_of_not_pos unlatched) _ _ _ _
  · exact refuse_keepsLaws _ s

theorem execEvtQuery_keepsLaws (p : Port) (s : State) : KeepingLaws s (execEvtQuery p s) := by
  refine command_keepsLaws fun params => ?_
  split
  · split
    · exact refuse_keepsLaws _ s
    · next l _ =>
      have cleared : KeepsLaws s (s.updLine l fun r => { r with saturated := false }) := .updLine fun h => ⟨h.1, h.2⟩
      refine done_keepsLaws ?_ _
      split
      · exact cleared
      · exact cleared.trans (.draw _ _)
  · exact refuse_keepsLaws _ s

/-! ### The page commands (R146 to R157) and time (R113, R114) -/

theorem execPageAlloc_keepsLaws (p : Port) (s : State) : KeepingLaws s (execPageAlloc p s) := by
  refine command_keepsLaws fun params => ?_
  split
  · refine withCaller_keepsLaws fun x => ?_
    split
    · exact refuse_keepsLaws _ s
    · exact allocate_keepsLaws _ _ _ _ _ s
  · exact refuse_keepsLaws _ s

theorem execPageFree_keepsLaws (p : Port) (s : State) : KeepingLaws s (execPageFree p s) := by
  refine command_keepsLaws fun params => ?_
  split
  · refine withCaller_keepsLaws fun x => ?_
    split
    · exact refuse_keepsLaws _ s
    · split
      · exact refuse_keepsLaws _ s
      · exact removeAndServe_keepsLaws _ s
  · exact refuse_keepsLaws _ s

theorem execPageGive_keepsLaws (p : Port) (s : State) : KeepingLaws s (execPageGive p s) := by
  refine command_keepsLaws fun params => ?_
  split
  · refine withCaller_keepsLaws fun x => ?_
    split
    · exact refuse_keepsLaws _ s
    · refine withTask_keepsLaws _ fun t => ?_
      split
      · exact refuse_keepsLaws _ s
      · exact done_keepsLaws (.updPool s _) _
  · exact refuse_keepsLaws _ s

theorem execPageQuery_keepsLaws (p : Port) (s : State) : KeepingLaws s (execPageQuery p s) := by
  refine command_keepsLaws fun params => ?_
  split
  · split
    · exact refuse_keepsLaws _ s
    · exact done_keepsLaws (.refl s) _
  · exact refuse_keepsLaws _ s

theorem execPageReclaim_keepsLaws (p : Port) (s : State) : KeepingLaws s (execPageReclaim p s) := by
  refine command_keepsLaws fun params => ?_
  split
  · split
    · exact refuse_keepsLaws _ s
    · split
      · exact refuse_keepsLaws _ s
      · exact removeAndServe_keepsLaws _ s
  · exact refuse_keepsLaws _ s

theorem execPageConfig_keepsLaws (p : Port) (s : State) : KeepingLaws s (execPageConfig p s) := by
  refine command_keepsLaws fun params => ?_
  split
  · split
    · exact refuse_keepsLaws _ s
    · split
      · exact refuse_keepsLaws _ s
      · exact done_keepsLaws ((KeepsLaws.updPool s _).trans (serve_keepsLaws _)) _
  · exact refuse_keepsLaws _ s

theorem execTimeConfig_keepsLaws (p : Port) (s : State) : KeepingLaws s (execTimeConfig p s) := by
  refine command_keepsLaws fun params => ?_
  split
  · simp only
    split
    · exact refuse_keepsLaws _ s
    · next range =>
      simp only [not_or, not_lt] at range
      obtain ⟨pos, le⟩ := range
      refine done_keepsLaws ?_ _
      exact .setTime s fun ⟨_, _, period⟩ => ⟨Nat.one_le_iff_ne_zero.2 pos, le, period⟩
  · exact refuse_keepsLaws _ s

theorem execTimeRead_keepsLaws (p : Port) (s : State) : KeepingLaws s (execTimeRead p s) := by
  refine command_keepsLaws fun params => ?_
  split
  · exact done_keepsLaws (.refl s) _
  · exact refuse_keepsLaws _ s

/-! ### The ports and the reset inputs (R177 to R183) -/

theorem execPortEnable_keepsLaws (p : Port) (s : State) : KeepingLaws s (execPortEnable p s) := by
  refine command_keepsLaws fun params => ?_
  split
  · split
    · exact refuse_keepsLaws _ s
    · exact enablePort_keepsLaws p s
  · exact refuse_keepsLaws _ s

theorem execPortDrop_keepsLaws (p : Port) (s : State) : KeepingLaws s (execPortDrop p s) := by
  refine take_keepsLaws fun params => ?_
  split
  · split
    · exact (complete_keepsLaws p (done [] s)).trans (losePortWhole_keepsLaws p _)
    · exact complete_keepsLaws p (refuse .wrongState s)
  · exact complete_keepsLaws p (refuse .paramCount s)

theorem execPeerDrop_keepsLaws (p : Port) (s : State) : KeepingLaws s (execPeerDrop p s) := by
  refine command_keepsLaws fun params => ?_
  split
  · split
    · exact losePortWhole_keepsLaws _ s
    · exact refuse_keepsLaws _ s
  · exact refuse_keepsLaws _ s

theorem execDeviceReset_keepsLaws (p : Port) (s : State) : KeepingLaws s (execDeviceReset p s) := by
  refine take_keepsLaws fun params => ?_
  split
  · split
    · exact complete_keepsLaws p (refuse .peerActive s)
    · exact (deviceReset_lawful s).keepsLaws
  · exact complete_keepsLaws p (refuse .paramCount s)

theorem execBadCommand_keepsLaws (p : Port) (s : State) : KeepingLaws s (execBadCommand p s) := by
  unfold execBadCommand
  split
  · exact keepingLaws_next (.refl s)
  · split
    · exact keepingLaws_next (.refl s)
    · exact keepingLaws_next (complete_keepsLaws p (refuse .badCommand s))

theorem execRstRelease_keepsLaws (s : State) : KeepingLaws s (execRstRelease s) := by
  unfold execRstRelease
  split
  · have lines : KeepsLaws s { s with lines := s.lines.map LineRecord.unsampled } := .setLines fun l h => by
      simp only [Fin.getElem_fin, Vector.getElem_map]
      exact h
    have time := KeepsLaws.setTime { s with lines := s.lines.map LineRecord.unsampled }
      (v := { s.time with baseDivider := 0, intervalCounter := 0 })
      fun ⟨low, high, periodLow, periodHigh, _⟩ => ⟨low, high, periodLow, periodHigh, Nat.zero_lt_succ _, periodLow⟩
    exact keepingLaws_next ((lines.trans time).trans (.of_fields rfl rfl rfl id))
  · exact keepingLaws_next (.refl s)

/-! ### The window (R161 to R172) -/

theorem access_keepsLaws {f : State → State} (keeps : KeepsLaws s (f s)) : KeepingLaws s (access p f s) := by
  unfold access
  split
  · exact keepingLaws_next keeps
  · exact keepingLaws_next (.refl s)

theorem accessUnit_keepsLaws (p : Port) (f : PortUnit → PortUnit) (s : State) :
    KeepingLaws s (access p (fun s => s.updUnit p f) s) := access_keepsLaws (.updPort s p _)

/-! ### All of them -/

/-- Every row keeps each law of the objects. -/
theorem exec_keepsLaws (c : Instr) (s : State) : KeepingLaws s (exec c s) := by
  cases c with
  | taskDelete p => exact execTaskDelete_keepsLaws p s
  | taskExit p => exact execTaskExit_keepsLaws p s
  | taskSetpri p => exact execTaskSetpri_keepsLaws p s
  | taskDelay p => exact execTaskDelay_keepsLaws p s
  | taskCreate p | taskStart p | taskHold p | taskRelease p | taskSetaff p | taskSetctx p | taskQuery p | taskSelf p | taskYield p
  | sliceExpiry p => exact keepingLaws_of_objects_left (p := p) (by simp) s
  | xchOpen p => exact execXchOpen_keepsLaws p s
  | xchClose p => exact execXchClose_keepsLaws p s
  | xchQuery p => exact execXchQuery_keepsLaws p s
  | msgSend p => exact execMsgSend_keepsLaws p s
  | msgRecv p => exact execMsgRecv_keepsLaws p s
  | cntAcquire p => exact execCntAcquire_keepsLaws p s
  | cntRelease p => exact execCntRelease_keepsLaws p s
  | evtConfig p => exact execEvtConfig_keepsLaws p s
  | evtWait p => exact execEvtWait_keepsLaws p s
  | evtQuery p => exact execEvtQuery_keepsLaws p s
  | pageAlloc p => exact execPageAlloc_keepsLaws p s
  | pageFree p => exact execPageFree_keepsLaws p s
  | pageGive p => exact execPageGive_keepsLaws p s
  | pageQuery p => exact execPageQuery_keepsLaws p s
  | pageReclaim p => exact execPageReclaim_keepsLaws p s
  | pageConfig p => exact execPageConfig_keepsLaws p s
  | timeConfig p => exact execTimeConfig_keepsLaws p s
  | timeRead p => exact execTimeRead_keepsLaws p s
  | portEnable p => exact execPortEnable_keepsLaws p s
  | portDrop p => exact execPortDrop_keepsLaws p s
  | peerDrop p => exact execPeerDrop_keepsLaws p s
  | deviceReset p => exact execDeviceReset_keepsLaws p s
  | badCommand p => exact execBadCommand_keepsLaws p s
  | prmWrite p _ | intpWrite p _ | inteWrite p _ | cmdWrite p _ => exact accessUnit_keepsLaws p _ s
  | prmRead p =>
    rw [exec, execPrmRead]
    split
    · exact keepingLaws_next (.updPort s p _)
    · exact keepingLaws_next (.updPort s p _)
  | accept p v => exact access_keepsLaws (takeAccept_keepsLaws p v s)
  | writeIgnored _ _ _ => exact keepingLaws_next (.refl s)
  | prstAssert p => exact keepingLaws_next ((KeepsLaws.updPort s p _).trans (losePortWhole_keepsLaws p _))
  | prstRelease p => exact keepingLaws_next (.updPort s p _)
  | rstAssert => exact keepingLaws_next ((deviceReset_lawful s).setRst true).keepsLaws
  | rstRelease => exact execRstRelease_keepsLaws s
  | lineEvent l e =>
    rw [exec, execLineEvent]
    split
    · exact keepingLaws_next (.refl s)
    · exact keepingLaws_next (recogniseEdge_keepsLaws l e s)
  | lineSample levels =>
    rw [exec, execLineSample]
    split
    · exact keepingLaws_next (.refl s)
    · exact keepingLaws_next (sampleLines_keepsLaws levels s)
  | tick =>
    rw [exec, execTick]
    split
    · exact keepingLaws_next (.refl s)
    · exact keepingLaws_next (tickWhole_keepsLaws s)
  | expiry t => exact keepingLaws_next (expire_keepsLaws t s)

/-- Settles O57: each operation is a chain of moves, each of which keeps every one of the four laws by itself. -/
theorem everyStepKeepsTheObjectLaws : Obligations.EveryStepKeepsTheObjectLaws := by
  intro s u e
  have keeps : KeepsLaws s u := by
    unfold step at e
    split at e
    · cases e
      exact clkPeriod_keepsLaws s
    · next c rest _ =>
      have taken : KeepsLaws s { s with pending := rest } := .of_fields rfl rfl rfl id
      exact taken.trans (exec_keepsLaws c _ u e)
  exact ⟨keeps.exchanges, keeps.cells, keeps.lines, keeps.ticks⟩

end

end Sys2Proof.Machine

/-! ## The order of the timer list and of the waiters (R82, R83, R99, R106, R116) -/

namespace Sys2Proof.Machine

section
variable {s : State} {t : Slot} {y : Fin 16} {o : WaiterOrder}

/-- In an ordered list what stands behind the entries of at most a bound is above it. -/
theorem lt_of_mem_dropWhile {α κ : Type} [LinearOrder κ] {key : α → κ} {bound : κ} {before : α → Bool}
    (before_iff : ∀ f, before f = true ↔ key f ≤ bound) {l : List α} (sorted : l.Pairwise fun f g => key f ≤ key g) :
    ∀ f ∈ l.dropWhile before, bound < key f := by
  induction l with
  | nil => simp
  | cons g l ih =>
    obtain ⟨first, rest⟩ := List.pairwise_cons.1 sorted
    rw [List.dropWhile_cons]
    split
    · exact ih rest
    · next behind =>
      have above : bound < key g := lt_of_not_ge fun le => behind ((before_iff g).2 le)
      intro f hf
      rcases List.mem_cons.1 hf with rfl | hf
      · exact above
      · exact above.trans_le (first f hf)

/-- What is inserted behind every entry of at most its own key stands ahead of none of them, and in an ordered list ahead of all
the others. -/
theorem insert_behind_spec {α κ : Type} [LinearOrder κ] {key : α → κ} {e : α} {before : α → Bool}
    (before_iff : ∀ f, before f = true ↔ key f ≤ key e) (l : List α) :
    ∃ front back, l = front ++ back ∧ l.takeWhile before ++ e :: l.dropWhile before = front ++ e :: back ∧
      (∀ f ∈ front, key f ≤ key e) ∧ (l.Pairwise (fun f g => key f ≤ key g) → ∀ f ∈ back, key e < key f) :=
  ⟨_, _, List.takeWhile_append_dropWhile.symm, rfl, fun f hf => (before_iff f).1 (List.mem_takeWhile_imp hf),
    fun sorted => lt_of_mem_dropWhile before_iff sorted⟩

theorem waiterOrder_of_message {b : Mailbox} (e : (s.exchange y).state = .message o b) : s.waiterOrder y = o := by
  simp only [State.waiterOrder, e]

theorem waiterOrder_of_count {c : Counter} (e : (s.exchange y).state = .count o c) : s.waiterOrder y = o := by
  simp only [State.waiterOrder, e]

theorem rejoin_of_mem {l : List Slot} (mem : t ∈ l) : rejoin s t l = insertWaiter s .urgency t (l.erase t) := if_pos mem

/-- Settles O20: both insertions put an entry behind those of at most its key; a waiter is repositioned by the kind of its wait. -/
theorem orderOfTimersAndWaiters : Obligations.OrderOfTimersAndWaiters := by
  refine ⟨fun counter e l => ?_, fun s t l => ⟨rfl, ?_⟩, fun t s w wait => ⟨?_, fun x id index =>
    ⟨fun low high b kind => ⟨fun arrival => ?_, fun urgency mem => ?_⟩, fun m b kind => ⟨fun arrival => ?_, fun urgency mem => ?_⟩,
      fun c kind => ⟨fun arrival => ?_, fun urgency mem => ?_⟩⟩⟩⟩
  · exact insert_behind_spec (key := fun f : TimerEntry => remainingCount counter f.deadline) (fun f => decide_eq_true_iff) l
  · exact insert_behind_spec (key := fun u : Slot => (s.task u).priority) (fun u => decide_eq_true_iff) l
  · rintro (kind | ⟨l, kind⟩ | ⟨n, kind⟩) <;> simp only [repositionWaiter, wait, kind]
  · simp only [repositionWaiter, wait, kind, exchangeIndex_eq index, waiterOrder_of_message arrival, reduceCtorEq, if_false]
  · simp only [repositionWaiter, wait, kind, exchangeIndex_eq index, waiterOrder_of_message urgency, if_true,
      updMailbox_of_message urgency, rejoin_of_mem mem]
  · simp only [repositionWaiter, wait, kind, exchangeIndex_eq index, waiterOrder_of_message arrival, reduceCtorEq, if_false]
  · simp only [repositionWaiter, wait, kind, exchangeIndex_eq index, waiterOrder_of_message urgency, if_true,
      updMailbox_of_message urgency, rejoin_of_mem mem]
  · simp only [repositionWaiter, wait, kind, exchangeIndex_eq index, waiterOrder_of_count arrival, reduceCtorEq, if_false]
  · simp only [repositionWaiter, wait, kind, exchangeIndex_eq index, waiterOrder_of_count urgency, if_true,
      updCounter_of_count urgency, rejoin_of_mem mem]

end

end Sys2Proof.Machine

/-! ## Opening, closing and reporting an exchange (R73 to R75, R77, R98, R107, R108) -/

namespace Sys2Proof.Machine

section
variable {s : State} {p : Port} {x : Fin 16} {o : WaiterOrder} {e : ExchangeState} {cells : Nat}

/-! ### XCH.OPEN (R74, R98) -/

theorem lowestClosed_eq_none (all_open : ∀ x, (s.exchange x).state ≠ .closed) : s.lowestClosed = none := by
  unfold State.lowestClosed
  simp only [List.find?_eq_none, beq_iff_eq]
  exact fun x _ => all_open x

theorem lowestClosed_eq_some (closed : (s.exchange x).state = .closed) (lowest : ∀ y < x, (s.exchange y).state ≠ .closed) :
    s.lowestClosed = some x :=
  Fin.find?_eq_find?_finRange.symm.trans (Fin.find?_eq_some_iff.2 ⟨by simp [closed], fun y hy => by simpa using lowest y hy⟩)

theorem openExchange_without_record (all_open : ∀ x, (s.exchange x).state ≠ .closed) :
    openExchange e cells s = refuse .noExchange s := by
  simp only [openExchange, lowestClosed_eq_none all_open]

theorem openExchange_without_cells (found : s.lowestClosed = some x) (few : s.freeCells < cells) :
    openExchange e cells s = refuse .noCells s := by
  simp only [openExchange, found, if_pos few]

/-- The id of an exchange reads its generation alone (R72). -/
theorem openExchange_opens (found : s.lowestClosed = some x) (enough : cells ≤ s.freeCells) :
    openExchange e cells s = done [s.exchangeId x] { s.setExchange x e with freeCells := s.freeCells - cells } := by
  have id : ({ s.setExchange x e with freeCells := s.freeCells - cells } : State).exchangeId x = s.exchangeId x := by
    show (s.setExchange x e).exchangeId x = _
    rw [State.exchangeId, State.setExchange_exchange, if_pos rfl]
    rfl
  simp only [openExchange, found, if_neg (Nat.not_lt.2 enough), id]

theorem waiterOrderOf_code (o : WaiterOrder) : waiterOrderOf o.code = some o := by
  cases o <;> rfl

theorem waiterOrderOf_eq_none {b : Byte} (no_arrival : b ≠ 1) (no_urgency : b ≠ 2) : waiterOrderOf b = none := by
  simp only [waiterOrderOf, if_neg no_arrival, if_neg no_urgency]

/-- Parameters of a MESSAGE exchange in range (R74). -/
theorem exec_xchOpen_message {size : Byte} (h : s.Submitted p .xchOpen [1, o.code, size, 0]) (low : 1 ≤ size.toNat)
    (high : size.toNat ≤ 16) :
    exec (.xchOpen p) s = .next (complete p (openExchange (.message o ⟨size.toNat, [], [], []⟩) size.toNat s)) := by
  have inRange : ¬(size = 0 ∨ 16 < size.toNat ∨ (0 : Byte) ≠ 0) := by
    rintro (zero | above | initial)
    · rw [zero] at low; exact absurd low (by decide)
    · omega
    · exact initial rfl
  simp only [exec, execXchOpen, command_eq_complete h, waiterOrderOf_code, if_true, if_neg inRange]

/-- Parameters of a COUNT exchange in range (R98). -/
theorem exec_xchOpen_count {size initial : Byte} (h : s.Submitted p .xchOpen [2, o.code, size, initial]) (low : size ≠ 0)
    (high : initial.toNat ≤ size.toNat) :
    exec (.xchOpen p) s = .next (complete p (openExchange (.count o ⟨size.toNat, initial.toNat, []⟩) 0 s)) := by
  have inRange : ¬(size = 0 ∨ size.toNat < initial.toNat) := not_or.2 ⟨low, Nat.not_lt.2 high⟩
  simp only [exec, execXchOpen, command_eq_complete h, waiterOrderOf_code, if_neg (show ¬(2 : Byte) = 1 by decide), if_true,
    if_neg inRange]

/-- Any other parameters are out of range. -/
theorem exec_xchOpen_badParam {kind order size initial : Byte} (h : s.Submitted p .xchOpen [kind, order, size, initial])
    (bad : ¬((order = 1 ∨ order = 2) ∧
      ((kind = 1 ∧ 1 ≤ size.toNat ∧ size.toNat ≤ 16 ∧ initial = 0) ∨ (kind = 2 ∧ size ≠ 0 ∧ initial.toNat ≤ size.toNat)))) :
    exec (.xchOpen p) s = .next (s.completed p 0x12 []) := by
  simp only [exec, execXchOpen]
  refine command_refuses (r := .badParam) h ?_
  simp only
  cases order_eq : waiterOrderOf order with
  | none => rfl
  | some o =>
    have ordered : order = 1 ∨ order = 2 := by
      by_contra none_of
      obtain ⟨no_arrival, no_urgency⟩ := not_or.1 none_of
      cases order_eq.symm.trans (waiterOrderOf_eq_none no_arrival no_urgency)
    simp only
    split
    · next message =>
      refine if_pos ?_
      by_contra good
      simp only [not_or, not_lt, not_not] at good
      obtain ⟨pos, le, initial⟩ := good
      exact bad ⟨ordered, .inl ⟨message, one_le_toNat pos, le, initial⟩⟩
    · split
      · next count =>
        refine if_pos ?_
        by_contra good
        simp only [not_or, not_lt] at good
        obtain ⟨pos, le⟩ := good
        exact bad ⟨ordered, .inr ⟨count, pos, le⟩⟩
      · rfl

theorem exists_order_of_code {order : Byte} (ordered : order = 1 ∨ order = 2) : ∃ o : WaiterOrder, o.code = order := by
  rcases ordered with rfl | rfl
  · exact ⟨.arrival, rfl⟩
  · exact ⟨.urgency, rfl⟩

/-- Settles O35: in range, what is opened depends on the lowest CLOSED record and on the free cells. -/
theorem xchOpenTakesTheLowestClosedRecord : Obligations.XchOpenTakesTheLowestClosedRecord := by
  intro p s kind order size initial h inRange
  refine ⟨fun bad => exec_xchOpen_badParam h bad, fun ⟨ordered, kinds⟩ all_open => ?_, fun x o ⟨_, kinds⟩ closed lowest code => ?_⟩
  · obtain ⟨o, rfl⟩ := exists_order_of_code ordered
    rcases kinds with ⟨rfl, low, high, rfl⟩ | ⟨rfl, low, high⟩
    · rw [exec_xchOpen_message h low high, openExchange_without_record all_open, complete_refuse]; rfl
    · rw [exec_xchOpen_count h low high, openExchange_without_record all_open, complete_refuse]; rfl
  · have found := lowestClosed_eq_some closed lowest
    subst code
    rcases kinds with ⟨rfl, low, high, rfl⟩ | ⟨rfl, low, high⟩
    · refine ⟨fun _ few => ?_, fun _ enough => ?_, fun count => absurd count (by decide)⟩
      · rw [exec_xchOpen_message h low high, openExchange_without_cells found few, complete_refuse]; rfl
      · rw [exec_xchOpen_message h low high, openExchange_opens found enough, complete_done]
    · refine ⟨fun message => absurd message (by decide), fun message => absurd message (by decide), fun _ => ?_⟩
      rw [exec_xchOpen_count h low high, openExchange_opens found (Nat.zero_le _), complete_done]
      rfl

/-! ### XCH.CLOSE and XCH.QUERY (R75, R77, R107, R108) -/

theorem exec_xchClose (h : s.Submitted p .xchClose [s.exchangeId x]) (opened : (s.exchange x).state ≠ .closed) :
    exec (.xchClose p) s = .next (complete p (closeExchange x s)) := by
  simp only [exec, execXchClose, command_eq_complete h, withExchange_id opened]

theorem exec_xchQuery (h : s.Submitted p .xchQuery [s.exchangeId x]) (opened : (s.exchange x).state ≠ .closed) :
    exec (.xchQuery p) s = .next (s.completed p 0x00 (s.exchangeSnapshot x)) := by
  simp only [exec, execXchQuery, command_eq_complete h, withExchange_id opened, complete_done]

/-- The waits that end leave the generation and the free cells. -/
theorem closeExchange_eq (x : Fin 16) (s : State) :
    closeExchange x s =
      done [countByte (s.exchange x).state.waiters.length, countByte (s.exchange x).state.queued]
        { endWaits (s.exchange x).state.waiters .closed s with
          exchanges := (endWaits (s.exchange x).state.waiters .closed s).exchanges.set x ⟨(s.exchange x).generation + 1, .closed⟩
          freeCells := s.freeCells + (s.exchange x).state.cells } := by
  have ended := (endWaits_frame (s.exchange x).state.waiters .closed s).objects
  simp only [closeExchange, ended.generation, ended.freeCells]

theorem WaiterOrder.code_eq (o : WaiterOrder) : o.code = if o = .arrival then 1 else 2 := by
  cases o <;> rfl

/-- Settles O36: both commands read what the exchange holds. -/
theorem xchCloseAndQuery : Obligations.XchCloseAndQuery := by
  refine fun p s x => ⟨fun h => ⟨fun o b e => ?_, fun o c e => ?_⟩, fun h => ⟨fun o b e => ?_, fun o c e => ?_⟩⟩
  · rw [exec_xchClose h (by simp [e]), closeExchange_eq, complete_done, e]; rfl
  · rw [exec_xchClose h (by simp [e]), closeExchange_eq, complete_done, e]; rfl
  · rw [exec_xchQuery h (by simp [e])]
    simp only [State.exchangeSnapshot, e, WaiterOrder.code_eq, countByte]
  · rw [exec_xchQuery h (by simp [e])]
    simp only [State.exchangeSnapshot, e, WaiterOrder.code_eq, countByte]

end

end Sys2Proof.Machine

/-! ## Messages: send, receive and refill (R84 to R89) -/

namespace Sys2Proof.Machine

section
variable {s : State} {p : Port} {x : Fin 16} {o : WaiterOrder} {b : Mailbox} {option : Byte} {timeout : Half}

/-! ### Filters (R80) -/

/-- The receiver's filter holds the tag. -/
def State.Receives (s : State) (tag : Byte) (t : Slot) : Prop :=
  ∃ id low high d, (s.task t).wait = some ⟨.recv id low high, d⟩ ∧ low.toNat ≤ tag.toNat ∧ tag.toNat ≤ high.toNat

theorem tagInRange_iff {low high tag : Byte} :
    tagInRange low high tag = true ↔ low.toNat ≤ tag.toNat ∧ tag.toNat ≤ high.toNat := by
  simp [tagInRange]

theorem filterMatches_iff {tag : Byte} {t : Slot} : s.filterMatches tag t = true ↔ s.Receives tag t := by
  unfold State.filterMatches State.Receives
  split
  · next id low high d wait =>
    rw [tagInRange_iff]
    refine ⟨fun range => ⟨id, low, high, d, wait, range⟩, ?_⟩
    rintro ⟨id', low', high', d', wait', range⟩
    cases wait.symm.trans wait'
    exact range
  · next no_recv =>
    refine iff_of_false (by simp) ?_
    rintro ⟨id, low, high, d, wait, -⟩
    exact no_recv id low high d wait

theorem matchingReceiver_eq_some {tag : Byte} {r : Slot} {before after : List Slot} (split : b.receivers = before ++ r :: after)
    (receives : s.Receives tag r) (first : ∀ u ∈ before, ¬s.Receives tag u) : s.matchingReceiver b tag = some r := by
  refine List.find?_eq_some_iff_append.2 ⟨filterMatches_iff.2 receives, before, after, split, fun u hu => ?_⟩
  simpa only [Bool.not_eq_true', Bool.eq_false_iff, ne_eq, filterMatches_iff] using first u hu

theorem matchingReceiver_eq_none {tag : Byte} (nobody : ∀ u ∈ b.receivers, ¬s.Receives tag u) : s.matchingReceiver b tag = none :=
  List.find?_eq_none.2 fun u hu => by simpa [filterMatches_iff] using nobody u hu

/-- The first matching receiver leaves the list at its own position. -/
theorem handMessage_eq (e : (s.exchange x).state = .message o b) {r : Slot} {before after : List Slot}
    (split : b.receivers = before ++ r :: after) (absent : r ∉ before) (m : Message) :
    handMessage x r m s =
      endWait r (.ok (.message m)) (s.setExchange x (.message o { b with receivers := before ++ after })) := by
  simp only [handMessage, updMailbox_of_message e, split, List.erase_append_right _ absent, List.erase_cons_head]

/-! ### A command that may wait (R84) -/

/-- The caller that a wait option gives: none with NO_WAIT, the caller of the port with FOREVER and TIMED. -/
def State.Asks (s : State) (p : Port) (option : Byte) (caller : Option Slot) : Prop :=
  (option = 0 → caller = none) ∧ (option ≠ 0 → ∃ c, s.IsCaller p c ∧ caller = some c)

/-- A command whose wait option is in range runs its body for the caller that the option gives. -/
theorem withWaiter_asks (ask : s.MayAsk p option) (range : OptionInRange option timeout) (k : Option Slot → Reply) :
    ∃ caller, s.Asks p option caller ∧ withWaiter p option s k = k caller := by
  obtain ⟨no_forever, no_timed, e⟩ | ⟨waits, c, caller, e⟩ := withWaiter_cases ask k
  · refine ⟨none, ⟨fun _ => rfl, fun ne => ?_⟩, e⟩
    rcases range with zero | forever | ⟨timed, -⟩
    · exact absurd zero ne
    · exact absurd forever no_forever
    · exact absurd timed no_timed
  · refine ⟨some c, ⟨fun zero => ?_, fun _ => ⟨c, caller, rfl⟩⟩, e⟩
    rcases waits with rfl | rfl <;> exact absurd zero (by decide)

/-- With NO_WAIT the command is refused. -/
theorem complete_waitOr_refused {caller : Option Slot} (asks : s.Asks p option caller) (no_wait : option = 0) (refusal : Result)
    (kind : WaitKind) (d : Option TickCount) :
    complete p (waitOr refusal p caller kind d s) = s.completed p refusal.code [] := by
  rw [asks.1 no_wait, waitOr, complete_refuse]

/-- With FOREVER or TIMED the caller begins a wait. -/
theorem complete_waitOr_begins {caller : Option Slot} (asks : s.Asks p option caller) {c : Slot} (isCaller : s.IsCaller p c)
    {d : Option TickCount} (deadline : s.DeadlineIs option timeout d) (refusal : Result) (kind : WaitKind) :
    complete p (waitOr refusal p caller kind (s.deadlineOf option timeout) s) = s.waitBegun p c kind d := by
  have waits : option ≠ 0 := by
    rintro rfl
    rcases deadline with ⟨forever, -⟩ | ⟨timed, -⟩
    · exact absurd forever (by decide)
    · exact absurd timed (by decide)
  obtain ⟨c', isCaller', rfl⟩ := asks.2 waits
  cases IsCaller_unique isCaller isCaller'
  rw [waitOr, deadlineOf_of_deadlineIs deadline, complete_eq_completed, beganWait_completed]

/-! ### MSG.SEND (R84 to R86) -/

theorem exec_msgSend {tag v₀ v₁ lo hi : Byte} (h : s.Submitted p .msgSend [s.exchangeId x, tag, v₀, v₁, option, lo, hi])
    (ask : s.MayAsk p option) (range : OptionInRange option (hi ++ lo)) (opened : (s.exchange x).state ≠ .closed) :
    ∃ caller, s.Asks p option caller ∧
      exec (.msgSend p) s =
        .next (complete p (sendMessage p caller (s.deadlineOf option (hi ++ lo)) (s.exchangeId x) x
          ⟨tag, v₁ ++ v₀, s.senderField p⟩ s)) := by
  have inRange : ¬waitInRange option (half lo hi) = false := by
    rw [(waitInRange_iff option (half lo hi)).2 range]
    decide
  obtain ⟨caller, asks, e⟩ := withWaiter_asks ask range fun caller =>
    sendMessage p caller (s.deadlineOf option (hi ++ lo)) (s.exchangeId x) x ⟨tag, v₁ ++ v₀, s.senderField p⟩ s
  refine ⟨caller, asks, ?_⟩
  rw [← e]
  simp only [exec, execMsgSend, command_eq_complete h, if_neg inRange, withExchange_id opened]
  rfl

theorem sendMessage_count {c : Counter} (e : (s.exchange x).state = .count o c) (caller : Option Slot) (d : Option TickCount)
    (id : Byte) (m : Message) : sendMessage p caller d id x m s = refuse .wrongKind s := by
  simp only [sendMessage, State.mailbox, e]

theorem sendMessage_received (e : (s.exchange x).state = .message o b) {m : Message} {r : Slot}
    (found : s.matchingReceiver b m.tag = some r) (caller : Option Slot) (d : Option TickCount) (id : Byte) :
    sendMessage p caller d id x m s = done [1] (handMessage x r m s) := by
  simp only [sendMessage, State.mailbox, e, found]

theorem sendMessage_queued (e : (s.exchange x).state = .message o b) {m : Message} (nobody : s.matchingReceiver b m.tag = none)
    (room : b.queue.length < b.capacity) (caller : Option Slot) (d : Option TickCount) (id : Byte) :
    sendMessage p caller d id x m s = done [2] (queueMessage x m s) := by
  simp only [sendMessage, State.mailbox, e, nobody, if_pos room]

theorem sendMessage_full (e : (s.exchange x).state = .message o b) {m : Message} (nobody : s.matchingReceiver b m.tag = none)
    (full : b.capacity ≤ b.queue.length) (caller : Option Slot) (d : Option TickCount) (id : Byte) :
    sendMessage p caller d id x m s = waitOr .full p caller (.send id m) d s := by
  simp only [sendMessage, State.mailbox, e, nobody, if_neg (Nat.not_lt.2 full)]

/-- Settles O37: the message goes to the first matching receiver, to the queue, or into the caller's wait. -/
theorem msgSendHandsQueuesRefusesOrWaits : Obligations.MsgSendHandsQueuesRefusesOrWaits := by
  intro p s x tag v₀ v₁ option lo hi h ask range
  refine ⟨fun o c e => ?_, fun o b e => ?_⟩
  · obtain ⟨caller, -, run⟩ := exec_msgSend h ask range (by simp [e])
    rw [run, sendMessage_count e, complete_refuse]; rfl
  intro mark sender m matching
  have field : s.senderField p = sender := by
    simp only [State.senderField, sender, mark]
    cases p <;> rfl
  obtain ⟨caller, asks, run⟩ := exec_msgSend h ask range (by simp [e])
  rw [field] at run
  refine ⟨fun before r after split receives first => ?_, fun nobody room => ?_, fun nobody full => ⟨fun no_wait => ?_,
    fun c d isCaller deadline => ?_⟩⟩
  · rw [run, sendMessage_received e (matchingReceiver_eq_some (tag := m.tag) split receives first), complete_done,
      handMessage_eq e split fun mem => first r mem receives]
  · rw [run, sendMessage_queued e (matchingReceiver_eq_none (tag := m.tag) nobody) room, complete_done, queueMessage_eq e]
  · rw [run, sendMessage_full e (matchingReceiver_eq_none (tag := m.tag) nobody) full, complete_waitOr_refused asks no_wait]; rfl
  · rw [run, sendMessage_full e (matchingReceiver_eq_none (tag := m.tag) nobody) full, complete_waitOr_begins asks isCaller deadline]

/-! ### MSG.RECV (R87, R88) -/

theorem exec_msgRecv_unordered {id low high lo hi : Byte} (h : s.Submitted p .msgRecv [id, low, high, option, lo, hi])
    (ask : s.MayAsk p option) (unordered : high.toNat < low.toNat) : exec (.msgRecv p) s = .next (s.completed p 0x12 []) := by
  simp only [exec, execMsgRecv]
  refine command_refuses (r := .badParam) h ?_
  obtain ⟨caller, e⟩ := withWaiter_runs ask _
  exact e.trans (if_pos (.inr unordered))

theorem exec_msgRecv {low high lo hi : Byte} (h : s.Submitted p .msgRecv [s.exchangeId x, low, high, option, lo, hi])
    (ask : s.MayAsk p option) (range : OptionInRange option (hi ++ lo)) (ordered : low.toNat ≤ high.toNat)
    (opened : (s.exchange x).state ≠ .closed) :
    ∃ caller, s.Asks p option caller ∧
      exec (.msgRecv p) s =
        .next (complete p (receiveMessage p caller (s.deadlineOf option (hi ++ lo)) (s.exchangeId x) low high x s)) := by
  have inRange : ¬(waitInRange option (half lo hi) = false ∨ high.toNat < low.toNat) := by
    rw [(waitInRange_iff option (half lo hi)).2 range, not_or]
    exact ⟨by decide, Nat.not_lt.2 ordered⟩
  obtain ⟨caller, asks, e⟩ := withWaiter_asks ask range fun caller =>
    receiveMessage p caller (s.deadlineOf option (hi ++ lo)) (s.exchangeId x) low high x s
  refine ⟨caller, asks, ?_⟩
  rw [← e]
  simp only [exec, execMsgRecv, command_eq_complete h, if_neg inRange, withExchange_id opened]
  rfl

theorem receiveMessage_count {c : Counter} (e : (s.exchange x).state = .count o c) (caller : Option Slot) (d : Option TickCount)
    (id low high : Byte) : receiveMessage p caller d id low high x s = refuse .wrongKind s := by
  simp only [receiveMessage, State.mailbox, e]

/-- The oldest message in the range leaves the queue at its own position. -/
theorem receiveMessage_taken (e : (s.exchange x).state = .message o b) {low high : Byte} {m : Message} {before after : List Message}
    (split : b.queue = before ++ m :: after) (passes : tagInRange low high m.tag = true)
    (oldest : ∀ n ∈ before, ¬tagInRange low high n.tag = true) (caller : Option Slot) (d : Option TickCount) (id : Byte) :
    receiveMessage p caller d id low high x s =
      done m.bytes (refill x (s.setExchange x (.message o { b with queue := before ++ after }))) := by
  have found : b.queue.find? (fun m => tagInRange low high m.tag) = some m :=
    List.find?_eq_some_iff_append.2 ⟨passes, before, after, split, fun n hn => by simpa using oldest n hn⟩
  simp only [receiveMessage, State.mailbox, e, found, updMailbox_of_message e]
  rw [split, List.eraseP_append_right _ oldest, List.eraseP_cons_of_pos (p := fun n : Message => tagInRange low high n.tag) passes]

theorem receiveMessage_empty (e : (s.exchange x).state = .message o b) {low high : Byte}
    (none_passes : ∀ m ∈ b.queue, ¬tagInRange low high m.tag = true) (caller : Option Slot) (d : Option TickCount) (id : Byte) :
    receiveMessage p caller d id low high x s = waitOr .empty p caller (.recv id low high) d s := by
  have found : b.queue.find? (fun m => tagInRange low high m.tag) = none := List.find?_eq_none.2 none_passes
  simp only [receiveMessage, State.mailbox, e, found]

/-- Settles O38: the oldest message in the range is taken, or the caller waits for one. -/
theorem msgRecvTakesRefusesOrWaits : Obligations.MsgRecvTakesRefusesOrWaits := by
  intro p s x low high option lo hi h ask range
  refine ⟨fun unordered => exec_msgRecv_unordered h ask unordered, fun ordered => ⟨fun o c e => ?_, fun o b e => ?_⟩⟩
  · obtain ⟨caller, -, run⟩ := exec_msgRecv h ask range ordered (by simp [e])
    rw [run, receiveMessage_count e, complete_refuse]; rfl
  intro matching
  obtain ⟨caller, asks, run⟩ := exec_msgRecv h ask range ordered (by simp [e])
  refine ⟨fun before m after split passes oldest => ?_, fun none_passes => ⟨fun no_wait => ?_, fun c d isCaller deadline => ?_⟩⟩
  · rw [run, receiveMessage_taken e split (tagInRange_iff.2 passes) fun n hn k => oldest n hn (tagInRange_iff.1 k), complete_done]
    rfl
  · rw [run, receiveMessage_empty e fun m hm k => none_passes m hm (tagInRange_iff.1 k), complete_waitOr_refused asks no_wait]
    rfl
  · rw [run, receiveMessage_empty e fun m hm k => none_passes m hm (tagInRange_iff.1 k), complete_waitOr_begins asks isCaller deadline]

/-! ### Refill (R89) -/

theorem senders_length (x : Fin 16) (s : State) :
    (s.exchange x).state.senders.length = (s.mailbox x).elim 0 fun b => b.senders.length := by
  unfold State.mailbox
  cases (s.exchange x).state <;> rfl

theorem refill_eq_rounds (e : (s.exchange x).state = .message o b) : refill x s = refillRounds b.senders.length x s := by
  simp only [refill, State.mailbox, e, Option.elim_some]

theorem refill_of_full_or_unasked (e : (s.exchange x).state = .message o b)
    (stops : b.capacity ≤ b.queue.length ∨ b.senders = []) : refill x s = s := by
  rw [refill_eq_rounds e]
  cases senders : b.senders with
  | nil => rfl
  | cons t rest =>
    have full := stops.resolve_right (by rw [senders]; exact List.cons_ne_nil _ _)
    simp only [List.length_cons, refillRounds, State.mailbox, e, if_neg (Nat.not_lt.2 full)]

/-- One round of refill, after which as many rounds are enough as senders are left. -/
theorem refill_round (e : (s.exchange x).state = .message o b) (room : b.queue.length < b.capacity) {t : Slot} {rest : List Slot}
    (senders : b.senders = t :: rest) {m : Message} (held : s.heldMessage t = some m) :
    refill x s =
      refill x (deliverOrQueue x m (endWait t (.ok .none) (s.setExchange x (.message o { b with senders := rest })))) := by
  rw [refill_eq_rounds e, senders, List.length_cons]
  simp only [refillRounds, State.mailbox, e, if_pos room, senders, held, updMailbox_of_message e]
  generalize sent : deliverOrQueue x m (endWait t (.ok .none) (s.setExchange x (.message o { b with senders := rest }))) = u
  have fewer : (u.exchange x).state.senders.length ≤ rest.length := by
    rw [← sent]
    refine ((deliverOrQueue_senders x m _).trans (endWait_senders t _ _ x)).length_le.trans (le_of_eq ?_)
    rw [State.setExchange_state, if_pos rfl]
    rfl
  rw [refill]
  exact refillRounds_enough x _ _ u fewer (senders_length x u).le

/-- Settles O39: one round of refill, and where its message goes. -/
theorem refillMovesTheHeadSendersMessage : Obligations.RefillMovesTheHeadSendersMessage := by
  refine ⟨fun x s o b e => ⟨refill_of_full_or_unasked e, fun t rest id m d room senders wait => refill_round e room senders ?_⟩,
    fun x s o b m e => ?_⟩
  · simp only [State.heldMessage, wait]
  intro matching
  refine ⟨fun before r after split receives first => ?_, fun nobody => ?_⟩
  · simp only [deliverOrQueue, State.mailbox, e, Option.bind_some, matchingReceiver_eq_some split receives first]
    exact handMessage_eq e split (fun mem => first r mem receives) m
  · simp only [deliverOrQueue, State.mailbox, e, Option.bind_some, matchingReceiver_eq_none nobody]
    exact queueMessage_eq e m

end

end Sys2Proof.Machine

/-! ## Counts: acquire and release (R100 to R102) -/

namespace Sys2Proof.Machine

section
variable {s : State} {p : Port} {x : Fin 16} {o : WaiterOrder} {c : Counter} {option : Byte}

/-! ### CNT.ACQUIRE (R100, R101) -/

theorem exec_cntAcquire {lo hi : Byte} (h : s.Submitted p .cntAcquire [s.exchangeId x, option, lo, hi])
    (ask : s.MayAsk p option) (range : OptionInRange option (hi ++ lo)) (opened : (s.exchange x).state ≠ .closed) :
    ∃ caller, s.Asks p option caller ∧
      exec (.cntAcquire p) s =
        .next (complete p (acquireUnit p caller (s.deadlineOf option (hi ++ lo)) (s.exchangeId x) x s)) := by
  have inRange : ¬waitInRange option (half lo hi) = false := by
    rw [(waitInRange_iff option (half lo hi)).2 range]
    decide
  obtain ⟨caller, asks, e⟩ := withWaiter_asks ask range fun caller =>
    acquireUnit p caller (s.deadlineOf option (hi ++ lo)) (s.exchangeId x) x s
  refine ⟨caller, asks, ?_⟩
  rw [← e]
  simp only [exec, execCntAcquire, command_eq_complete h, if_neg inRange, withExchange_id opened]
  rfl

theorem acquireUnit_message {b : Mailbox} (e : (s.exchange x).state = .message o b) (caller : Option Slot)
    (d : Option TickCount) (id : Byte) : acquireUnit p caller d id x s = refuse .wrongKind s := by
  simp only [acquireUnit, e]

theorem acquireUnit_taken (e : (s.exchange x).state = .count o c) (units : 0 < c.count) (caller : Option Slot)
    (d : Option TickCount) (id : Byte) :
    acquireUnit p caller d id x s =
      done [countByte (c.count - 1)] (s.setExchange x (.count o { c with count := c.count - 1 })) := by
  simp only [acquireUnit, e, if_pos units, updCounter_of_count e]

theorem acquireUnit_empty (e : (s.exchange x).state = .count o c) (empty : c.count = 0) (caller : Option Slot)
    (d : Option TickCount) (id : Byte) :
    acquireUnit p caller d id x s = waitOr .empty p caller (.acquire id) d s := by
  simp only [acquireUnit, e, if_neg (Nat.not_lt.2 empty.le)]

/-! ### CNT.RELEASE (R102) -/

theorem exec_cntRelease (h : s.Submitted p .cntRelease [s.exchangeId x]) (opened : (s.exchange x).state ≠ .closed) :
    exec (.cntRelease p) s = .next (complete p (releaseUnit x s)) := by
  simp only [exec, execCntRelease, command_eq_complete h, withExchange_id opened]

theorem releaseUnit_message {b : Mailbox} (e : (s.exchange x).state = .message o b) :
    releaseUnit x s = refuse .wrongKind s := by
  simp only [releaseUnit, e]

theorem releaseUnit_handed (e : (s.exchange x).state = .count o c) {t : Slot} {rest : List Slot}
    (acquirers : c.acquirers = t :: rest) :
    releaseUnit x s =
      done [1, 0] (endWait t (.ok .none) (s.setExchange x (.count o { c with acquirers := rest }))) := by
  simp only [releaseUnit, e, acquirers, updCounter_of_count e]

theorem releaseUnit_counted (e : (s.exchange x).state = .count o c) (nobody : c.acquirers = []) (room : c.count < c.ceiling) :
    releaseUnit x s =
      done [2, countByte (c.count + 1)] (s.setExchange x (.count o { c with count := c.count + 1 })) := by
  simp only [releaseUnit, e, nobody, if_pos room, updCounter_of_count e]

theorem releaseUnit_at_ceiling (e : (s.exchange x).state = .count o c) (nobody : c.acquirers = [])
    (full : c.ceiling ≤ c.count) : releaseUnit x s = refuse .ceiling s := by
  simp only [releaseUnit, e, nobody, if_neg (Nat.not_lt.2 full)]

/-- Settles O40: an acquire turns on the count, a release on the acquirers and then on the ceiling. -/
theorem cntAcquireAndRelease : Obligations.CntAcquireAndRelease := by
  refine ⟨fun p s x option lo hi h ask range => ⟨fun o b e => ?_, fun o c e => ?_⟩,
    fun p s x h => ⟨fun o b e => ?_, fun o c e => ?_⟩⟩
  · obtain ⟨caller, -, run⟩ := exec_cntAcquire h ask range (by simp [e])
    rw [run, acquireUnit_message e, complete_refuse]; rfl
  · obtain ⟨caller, asks, run⟩ := exec_cntAcquire h ask range (by simp [e])
    refine ⟨fun units => ?_, fun empty => ⟨fun no_wait => ?_, fun y d isCaller deadline => ?_⟩⟩
    · rw [run, acquireUnit_taken e units, complete_done]; rfl
    · rw [run, acquireUnit_empty e empty, complete_waitOr_refused asks no_wait]; rfl
    · rw [run, acquireUnit_empty e empty, complete_waitOr_begins asks isCaller deadline]
  · rw [exec_cntRelease h (by simp [e]), releaseUnit_message e, complete_refuse]; rfl
  · have run := exec_cntRelease h (by simp [e])
    refine ⟨fun t rest acquirers => ?_, fun nobody room => ?_, fun nobody full => ?_⟩
    · rw [run, releaseUnit_handed e acquirers, complete_done]
    · rw [run, releaseUnit_counted e nobody room, complete_done]; rfl
    · rw [run, releaseUnit_at_ceiling e nobody full, complete_refuse]; rfl

end

end Sys2Proof.Machine

/-! ## TASK.DELAY, TIME.CONFIG and TIME.READ (R113, R114, R122) -/

namespace Sys2Proof.Machine

section
variable {s : State} {p : Port} {x : Slot}

/-! ### TASK.DELAY (R122) -/

theorem exec_taskDelay {lo hi : Byte} (caller : s.IsCaller p x) (h : s.Submitted p .taskDelay [lo, hi]) :
    exec (.taskDelay p) s =
      .next (complete p
        (if half lo hi = 0 then refuse .badParam s
        else beganWait (beginWait p x .delay (some (s.deadlineIn (half lo hi))) s))) := by
  simp only [exec, execTaskDelay, command_eq_complete h, withCaller_of_isCaller caller]

/-- Settles O31: by the count of ticks, a refusal or the beginning of the wait. -/
theorem taskDelayBeginsAWait : Obligations.TaskDelayBeginsAWait := by
  intro p s x lo hi caller h ticks
  rw [exec_taskDelay caller h]
  refine ⟨fun zero => ?_, fun positive => ?_⟩
  · rw [if_pos (show half lo hi = 0 from zero), complete_refuse]; rfl
  · rw [if_neg (show half lo hi ≠ 0 from positive), complete_eq_completed, beganWait_completed]; rfl

/-! ### TIME.CONFIG (R113) -/

/-- The two bytes of a number, low byte first. -/
theorem halfBytes_ofNat (n : Nat) : halfBytes (BitVec.ofNat 16 n) = [BitVec.ofNat 8 n, BitVec.ofNat 8 (n / 256)] := by
  have low : loByte (BitVec.ofNat 16 n) = BitVec.ofNat 8 n := by
    apply BitVec.eq_of_toNat_eq
    simp only [loByte, BitVec.toNat_setWidth, BitVec.toNat_ofNat]
    omega
  have high : hiByte (BitVec.ofNat 16 n) = BitVec.ofNat 8 (n / 256) := by
    apply BitVec.eq_of_toNat_eq
    simp only [hiByte, BitVec.toNat_setWidth, BitVec.toNat_ushiftRight, BitVec.toNat_ofNat, Nat.shiftRight_eq_div_pow]
    omega
  rw [halfBytes, low, high]

theorem exec_timeConfig_badParam {lo hi : Byte} (h : s.Submitted p .timeConfig [lo, hi])
    (range : (half lo hi).toNat = 0 ∨ 10000 < (half lo hi).toNat) :
    exec (.timeConfig p) s = .next (s.completed p 0x12 []) := by
  simp only [exec, execTimeConfig]
  exact command_refuses (r := .badParam) h (if_pos range)

theorem exec_timeConfig {lo hi : Byte} (h : s.Submitted p .timeConfig [lo, hi]) (low : 1 ≤ (half lo hi).toNat)
    (high : (half lo hi).toNat ≤ 10000) :
    exec (.timeConfig p) s =
      .next ({ s with time := { s.time with storedN := (half lo hi).toNat } }.completed p 0x00
        (halfBytes (BitVec.ofNat 16 s.time.storedN))) := by
  simp only [exec, execTimeConfig]
  exact command_carriesOut h (if_neg (by omega))

/-! ### TIME.READ (R114) -/

/-- A byte of a tick count is what a division of its value leaves. -/
theorem setWidth_shiftRight_eq_ofNat (c : TickCount) (k : Nat) :
    (c >>> k).setWidth 8 = BitVec.ofNat 8 (c.toNat / 2 ^ k) := by
  apply BitVec.eq_of_toNat_eq
  simp only [BitVec.toNat_setWidth, BitVec.toNat_ushiftRight, BitVec.toNat_ofNat, Nat.shiftRight_eq_div_pow]

theorem tickBytes_eq (c : TickCount) :
    tickBytes c =
      [BitVec.ofNat 8 c.toNat, BitVec.ofNat 8 (c.toNat / 256), BitVec.ofNat 8 (c.toNat / 65536),
        BitVec.ofNat 8 (c.toNat / 16777216)] := by
  simp only [tickBytes, setWidth_shiftRight_eq_ofNat, BitVec.ofNat_toNat, Nat.reducePow]

theorem exec_timeRead (h : s.Submitted p .timeRead []) :
    exec (.timeRead p) s = .next (s.completed p 0x00 (tickBytes s.time.counter)) := by
  simp only [exec, execTimeRead]
  exact command_carriesOut h rfl

/-- Settles O48: the range of N decides TIME.CONFIG; both results are numbers written low byte first. -/
theorem timeConfigAndRead : Obligations.TimeConfigAndRead := by
  refine fun p s => ⟨fun lo hi h => ?_, fun h => ?_⟩
  · intro n
    refine ⟨exec_timeConfig_badParam h, fun low high => ?_⟩
    rw [exec_timeConfig h low high, halfBytes_ofNat]; rfl
  · rw [exec_timeRead h, tickBytes_eq]

end

end Sys2Proof.Machine

/-! ## The tick, the expiry and the slice (R61, R112, R118 to R125) -/

namespace Sys2Proof.Machine

section
variable {s : State} {p : Port} {x t : Slot}

/-! ### The expiry of an entry (R118 to R121) -/

theorem State.isDue_iff : s.isDue t = true ↔ (⟨t, s.time.counter⟩ : TimerEntry) ∈ s.time.timers := by
  rw [State.isDue, List.any_eq_true]
  simp only [Bool.and_eq_true, beq_iff_eq]
  constructor
  · rintro ⟨⟨_, _⟩, mem, rfl, rfl⟩; exact mem
  · exact fun mem => ⟨_, mem, rfl, rfl⟩

theorem expire_of_not_due (h : (⟨t, s.time.counter⟩ : TimerEntry) ∉ s.time.timers) : expire t s = s :=
  if_neg fun due => h (State.isDue_iff.1 due)

/-- OK ends a DELAY, TIMEOUT every other wait (R119, R120). -/
theorem expiryDelivery_some (w : WaitRecord) :
    expiryDelivery (some w) = if w.kind = .delay then .ok .none else .timeout := by
  obtain ⟨kind, d⟩ := w
  cases kind <;> rfl

theorem expire_of_due (h : (⟨t, s.time.counter⟩ : TimerEntry) ∈ s.time.timers) :
    expire t s =
      if s.pool.waitQueue.head? = some t then serve (endWait t (expiryDelivery (s.task t).wait) s)
      else endWait t (expiryDelivery (s.task t).wait) s := by
  simp only [expire, if_pos (State.isDue_iff.2 h), State.isPageHead, beq_iff_eq]

/-! ### Counting the quantum of a port (R61, R124) -/

/-- The port is SETTLED with the task as occupant, and the task has a quantum to count (R124). -/
def State.CountedFor (s : State) (p : Port) (x : Slot) : Prop :=
  (s.port p).occ.offer = none ∧ (s.port p).occ.occupant = some x ∧ (s.task x).quantum ≠ 0

theorem State.CountedFor.counted (h : s.CountedFor p x) : s.counted p = true := by
  obtain ⟨settled, occupant, quantum⟩ := h
  simpa [State.counted, settled, occupant] using quantum

theorem State.CountedFor.occupant (h : s.CountedFor p x) : (s.port p).occ.occupant = some x := h.2.1

theorem State.counted_eq_false (nobody : ∀ x, ¬s.CountedFor p x) : s.counted p = false := by
  cases occupant : (s.port p).occ.occupant with
  | none => simp [State.counted, occupant]
  | some x =>
    cases settled : (s.port p).occ.offer with
    | some o => simp [State.counted, settled]
    | none =>
      have quantum : (s.task x).quantum = 0 := not_not.1 fun ne => nobody x ⟨settled, occupant, ne⟩
      simp [State.counted, settled, occupant, quantum]

/-- The counting of a port reaches 0 from 1 alone. -/
theorem State.CountedFor.slices_iff (h : s.CountedFor p x) : s.slices p = true ↔ (s.task x).remaining = 1 := by
  simp [State.slices, h.counted, h.occupant]

theorem countQuantum_of_not_counted (h : s.counted p = false) : countQuantum p s = s := by
  simp [countQuantum, h]

theorem countQuantum_of_above_one (h : s.CountedFor p x) (above : (s.task x).remaining ≠ 1) :
    countQuantum p s = s.updTask x fun r => { r with remaining := r.remaining - 1 } := by
  have left : (s.task x).remaining - 1 ≠ 0 := by bv_omega
  simp only [countQuantum, h.counted, h.occupant, if_true, State.updTask_task_self, if_neg left]

theorem countQuantum_of_one (h : s.CountedFor p x) (one : (s.task x).remaining = 1) :
    countQuantum p s = sliceExpired p x (s.updTask x fun r => { r with remaining := 0 }) := by
  have counts : (s.updTask x fun r => { r with remaining := r.remaining - 1 }) = s.updTask x fun r => { r with remaining := 0 } :=
    State.updTask_congr (by rw [one]; rfl)
  simp only [countQuantum, h.counted, h.occupant, if_true, counts, State.updTask_task_self]

/-- Neither the eligible tasks nor their order depend on what is left of a slice. -/
theorem firstPeer_updRemaining (n : Byte) :
    (s.updTask x fun r => { r with remaining := n }).firstPeer p x = s.firstPeer p x := by
  have same (u : Slot) : ((s.updTask x fun r => { r with remaining := n }).task u).affinity = (s.task u).affinity := by
    rw [State.updTask_task]
    split
    · next e => rw [e]
    · rfl
  have eligible : (s.updTask x fun r => { r with remaining := n }).eligible p = s.eligible p := by
    funext u
    simp only [State.eligible, same, State.updTask_port]
  simp only [State.firstPeer, eligible, State.updTask_queue, State.updTask_task_self]

theorem sliceExpired_of_no_peer (h : s.firstPeer p x = none) :
    sliceExpired p x s = s.updTask x fun r => { r with remaining := r.quantum } := by
  rw [sliceExpired, h]

theorem sliceExpired_of_peer {f : Slot} (h : s.firstPeer p x = some f) :
    sliceExpired p x s = offerTask p f (s.setDisposition p .readyTail) := by
  rw [sliceExpired, h]

/-! ### SLICE_EXPIRY (R61; log entries 6 and 11) -/

theorem exec_sliceExpiry (p : Port) (s : State) :
    exec (.sliceExpiry p) s = .next (if s.slices p then countQuantum p s else s) := by
  simp only [exec, execSliceExpiry]
  split <;> rfl

theorem exec_sliceExpiry_of_not_slicing (h : ¬s.slices p = true) : exec (.sliceExpiry p) s = .next s := by
  rw [exec_sliceExpiry, if_neg h]

/-! ### The tick (R118, R124, R125) -/

theorem exec_tick (h : s.rst = false) : exec .tick s = .next (tickWhole s) := by
  simp only [exec, execTick, h, Bool.false_eq_true, if_false]

/-- The counting of both ports takes one of the two orders, and may draw a free value (R125; log entry 8). -/
theorem countQuanta_orders (s : State) :
    ∃ drawn, countQuanta s = countQuantum .B (countQuantum .A { s with draws := drawn }) ∨
      countQuanta s = countQuantum .A (countQuantum .B { s with draws := drawn }) := by
  unfold countQuanta
  simp only
  split
  · refine ⟨s.draws + 1, ?_⟩
    split
    · exact .inr rfl
    · exact .inl rfl
  · exact ⟨s.draws, .inl rfl⟩

/-- Settles O49: the tick by its three steps, the expiry by the timer entry, the counting by what is left of the slice. -/
theorem tickExpiryAndSliceExpiry : Obligations.TickExpiryAndSliceExpiry := by
  refine ⟨fun s reset => ?_, fun s running => ?_, fun s t => ⟨rfl, expire_of_not_due, fun due w wait => ?_⟩,
    fun s p => ⟨fun nobody => ?_, fun x (counted : s.CountedFor p x) => ⟨fun above => ?_, fun one => ⟨?_, fun no_peer => ?_,
      fun f peer => ?_⟩⟩⟩⟩
  · simp only [exec, execTick, if_pos reset]
  · intro begun due expired
    obtain ⟨drawn, orders⟩ := countQuanta_orders expired
    rw [exec_tick running]
    exact ⟨drawn, orders.imp (congrArg _) (congrArg _)⟩
  · rw [expire_of_due due, wait, expiryDelivery_some]
  · have uncounted := State.counted_eq_false nobody
    exact ⟨countQuantum_of_not_counted uncounted, exec_sliceExpiry_of_not_slicing (by simp [State.slices, uncounted])⟩
  · exact ⟨countQuantum_of_above_one counted above, exec_sliceExpiry_of_not_slicing (mt counted.slices_iff.1 above)⟩
  · rw [exec_sliceExpiry, if_pos (counted.slices_iff.2 one)]
  · rw [countQuantum_of_one counted one,
      sliceExpired_of_no_peer ((firstPeer_updRemaining 0).trans (firstPeer_eq_none.2 no_peer)), updTask_updTask]
  · rw [countQuantum_of_one counted one,
      sliceExpired_of_peer ((firstPeer_updRemaining 0).trans (firstPeer_eq_some.2 peer))]

/-! ### The idle step (R112; log entry 7) -/

theorem step_of_idle (h : s.pending = []) : step s = .next (clkPeriod s) := by
  rw [step, h]

/-- Settles O3: the branches of one CLK period. -/
theorem idleStepCountsOneClkPeriod : Obligations.IdleStepCountsOneClkPeriod := by
  intro s idle
  rw [step_of_idle idle]
  refine ⟨fun reset => ?_, fun running low => ?_, fun running full low => ?_, fun running full last => ?_⟩
  · rw [clkPeriod, if_pos reset]
  all_goals rw [clkPeriod, if_neg (by simp [running])]
  · rw [if_pos low]
  · rw [if_neg (Nat.not_lt.2 full), if_pos low]
  · rw [if_neg (Nat.not_lt.2 full), if_neg (Nat.not_lt.2 last), exec_tick running]

end

end Sys2Proof.Machine

/-! ## The event lines: sampling, edges and line events (R131 to R134, R143) -/

namespace Sys2Proof.Machine

section
variable {s : State} {l : Line} {e : Edge} {levels : Byte}

/-! ### The line event (R132 to R134) -/

theorem State.updLine_congr {f g : LineRecord → LineRecord} (same : f (s.line l) = g (s.line l)) :
    s.updLine l f = s.updLine l g :=
  congrArg (fun r => { s with lines := s.lines.set l r }) same

theorem State.updLine_line_self (s : State) (l : Line) (f : LineRecord → LineRecord) :
    (s.updLine l f).line l = f (s.line l) := by
  rw [State.updLine_line, if_pos rfl]

theorem takeLineEvent_counted (nobody : (s.line l).waiters = []) (room : (s.line l).latch < 15) :
    takeLineEvent l s = s.updLine l fun r => { r with latch := r.latch + 1 } := by
  simp only [takeLineEvent, nobody]
  exact State.updLine_congr (if_pos room)

theorem takeLineEvent_lost (nobody : (s.line l).waiters = []) (full : 15 ≤ (s.line l).latch) :
    takeLineEvent l s = s.updLine l fun r => { r with saturated := true } := by
  simp only [takeLineEvent, nobody]
  exact State.updLine_congr (if_neg (Nat.not_lt.2 full))

theorem takeLineEvent_one {t : Slot} {rest : List Slot} (waiters : (s.line l).waiters = t :: rest)
    (one : (s.line l).releaseMode = .one) :
    takeLineEvent l s = endWait t (.ok .none) (s.updLine l fun r => { r with waiters := rest }) := by
  simp only [takeLineEvent, waiters, one]

theorem takeLineEvent_all {t : Slot} {rest : List Slot} (waiters : (s.line l).waiters = t :: rest)
    (all : (s.line l).releaseMode = .all) :
    takeLineEvent l s = endWaits (t :: rest) (.ok .none) (s.updLine l fun r => { r with waiters := [] }) := by
  simp only [takeLineEvent, waiters, all]

theorem edgeLevel_eq_decide (e : Edge) : edgeLevel e = decide (e = .rising) := by
  cases e <;> rfl

/-- The table of R132. -/
theorem admits_iff (mode : EdgeMode) (e : Edge) :
    mode.admits e = true ↔ mode = .both ∨ (mode = .rise ∧ e = .rising) ∨ (mode = .fall ∧ e = .falling) := by
  cases mode <;> cases e <;> decide

/-- The line whose edge is recognised: settled at the edge's level, with nothing left to confirm (R131). -/
def State.edgeSettled (s : State) (l : Line) (e : Edge) : State :=
  s.updLine l fun r => { r with sampled := true, settled := decide (e = .rising), pendingCount := false }

theorem edgeSettled_line (s : State) (l : Line) (e : Edge) :
    (s.edgeSettled l e).line l =
      { s.line l with sampled := true, settled := decide (e = .rising), pendingCount := false } :=
  State.updLine_line_self s l _

theorem recogniseEdge_eq (l : Line) (e : Edge) (s : State) :
    recogniseEdge l e s =
      if (s.line l).edgeMode.admits e then takeLineEvent l (s.edgeSettled l e) else s.edgeSettled l e := by
  rw [recogniseEdge, edgeLevel_eq_decide]; rfl

theorem exec_lineEvent_of_rst (reset : s.rst = true) (l : Line) (e : Edge) : exec (.lineEvent l e) s = .next s := by
  simp only [exec, execLineEvent, if_pos reset]

theorem exec_lineEvent (running : s.rst = false) (l : Line) (e : Edge) :
    exec (.lineEvent l e) s = .next (recogniseEdge l e s) := by
  simp only [exec, execLineEvent, running, Bool.false_eq_true, if_false]

/-- Settles O42: an edge settles the line; an admitted one is a line event, taken by the waiters or by the latch. -/
theorem lineEventReleasesOrIsLatched : Obligations.LineEventReleasesOrIsLatched := by
  intro l e s settled mode admitted
  have line : settled.line l = _ := edgeSettled_line s l e
  have waiters : (settled.line l).waiters = (s.line l).waiters := by rw [line]
  have latch : (settled.line l).latch = (s.line l).latch := by rw [line]
  have release : (settled.line l).releaseMode = (s.line l).releaseMode := by rw [line]
  refine ⟨fun reset => exec_lineEvent_of_rst reset l e, fun running ignored => ?_, fun running event => ?_⟩
  · rw [exec_lineEvent running, recogniseEdge_eq, if_neg fun admits => ignored ((admits_iff _ e).1 admits)]; rfl
  · have run : exec (.lineEvent l e) s = .next (takeLineEvent l settled) := by
      rw [exec_lineEvent running, recogniseEdge_eq, if_pos ((admits_iff _ e).2 event)]; rfl
    rw [run]
    refine ⟨fun nobody room => ?_, fun nobody full => ?_, fun t rest queue => ⟨fun one => ?_, fun all => ?_⟩⟩
    · rw [takeLineEvent_counted (waiters.trans nobody) (latch.trans_lt room)]
    · rw [takeLineEvent_lost (waiters.trans nobody) (full.trans_eq latch.symm)]
    · rw [takeLineEvent_one (waiters.trans queue) (release.trans one)]
    · rw [takeLineEvent_all (waiters.trans queue) (release.trans all)]; rfl

/-! ### One line of a sample (R131, R143) -/

theorem LineRecord.sample_of_first {r : LineRecord} {level : Bool} (first : r.sampled = false) :
    r.sample level = { r with sampled := true, settled := level, pendingCount := false } := by
  rw [LineRecord.sample, first]; rfl

theorem LineRecord.sample_of_agreeing {r : LineRecord} {level : Bool} (sampled : r.sampled = true) (agrees : level = r.settled) :
    r.sample level = { r with pendingCount := false } := by
  rw [LineRecord.sample, if_pos sampled, agrees, bne_self_eq_false]

theorem LineRecord.sample_of_differing {r : LineRecord} {level : Bool} (sampled : r.sampled = true)
    (differs : level ≠ r.settled) : r.sample level = { r with pendingCount := true } := by
  rw [LineRecord.sample, if_pos sampled, bne_iff_ne.2 differs]

/-- The sample is the second consecutive one that differs from the line's settled level (R131). -/
def State.HasEdge (s : State) (levels : Byte) (l : Line) : Prop :=
  (s.line l).sampled = true ∧ (s.line l).pendingCount = true ∧ levelOf levels l ≠ (s.line l).settled

/-- The edge that leads to the sampled level. -/
def sampledEdge (levels : Byte) (l : Line) : Edge := if levelOf levels l then .rising else .falling

theorem edgeAt_eq_some : (s.line l).edgeAt (levelOf levels l) = some e ↔ s.HasEdge levels l ∧ e = sampledEdge levels l := by
  rw [LineRecord.edgeAt, Option.ite_none_right_eq_some, Option.some.injEq, eq_comm (b := e)]
  simp only [State.HasEdge, sampledEdge, Bool.and_eq_true, bne_iff_ne, and_assoc]

theorem edgeAt_eq_none (quiet : ¬s.HasEdge levels l) : (s.line l).edgeAt (levelOf levels l) = none :=
  Option.eq_none_iff_forall_ne_some.2 fun _ edge => quiet (edgeAt_eq_some.1 edge).1

theorem sampleQuietLines_line_of_edge (edge : s.HasEdge levels l) : (sampleQuietLines levels s).line l = s.line l := by
  rw [State.line, sampleQuietLines]
  simp only [Fin.getElem_fin, Vector.getElem_ofFn, Fin.eta, edgeAt_eq_some.2 ⟨edge, rfl⟩]

theorem sampleQuietLines_line_of_quiet (quiet : ¬s.HasEdge levels l) :
    (sampleQuietLines levels s).line l = (s.line l).sample (levelOf levels l) := by
  rw [State.line, sampleQuietLines]
  simp only [Fin.getElem_fin, Vector.getElem_ofFn, Fin.eta, edgeAt_eq_none quiet]

/-! ### The edges of a sample and their order (R132; log entry 9) -/

/-- The edges of a sample are those of its lines, each of the level sampled. -/
theorem mem_edgesAt {f : Line × Edge} :
    f ∈ s.edgesAt levels ↔ s.HasEdge levels f.1 ∧ f.2 = sampledEdge levels f.1 := by
  obtain ⟨l, e⟩ := f
  simp [State.edgesAt, edgeAt_eq_some]

theorem mem_edgesAt_lines : l ∈ (s.edgesAt levels).map Prod.fst ↔ s.HasEdge levels l := by
  rw [List.mem_map]
  constructor
  · rintro ⟨f, mem, rfl⟩; exact (mem_edgesAt.1 mem).1
  · exact fun edge => ⟨(l, sampledEdge levels l), mem_edgesAt.2 ⟨edge, rfl⟩, rfl⟩

theorem edgesAt_lines_nodup (s : State) (levels : Byte) : ((s.edgesAt levels).map Prod.fst).Nodup := by
  rw [State.edgesAt, List.map_filterMap]
  refine (List.nodup_finRange 8).filterMap fun l m k hl hm => ?_
  simp only [Option.map_map, Option.mem_def, Option.map_eq_some_iff, Function.comp_apply, exists_and_right] at hl hm
  exact hl.2.trans hm.2.symm

theorem orderEdges_perm (rank : Line → Nat) (es : List (Line × Edge)) : (orderEdges rank es).Perm es := by
  have insert (f : Line × Edge) (es : List (Line × Edge)) :
      insertEdge rank f es = es.orderedInsert (fun f g => rank f.1 ≤ rank g.1) f := by
    induction es with
    | nil => rfl
    | cons g es ih => rw [insertEdge, List.orderedInsert_cons, ih]
  have sort : orderEdges rank es = es.insertionSort fun f g => rank f.1 ≤ rank g.1 := by
    rw [orderEdges, List.insertionSort, funext₂ insert]
  rw [sort]
  exact List.perm_insertionSort _ _

/-- A sample takes its edges in some order, after the lines that make none. -/
theorem sampleLines_takes_edges (levels : Byte) (s : State) :
    ∃ (es : List (Line × Edge)) (drawn : Nat), es.Perm (s.edgesAt levels) ∧
      sampleLines levels s =
        es.foldl (fun s f => recogniseEdge f.1 f.2 s) { sampleQuietLines levels s with draws := drawn } := by
  unfold sampleLines
  match s.edgesAt levels with
  | [] => exact ⟨[], s.draws, .refl _, rfl⟩
  | [f] => exact ⟨[f], s.draws, .refl _, rfl⟩
  | f :: g :: rest => exact ⟨_, s.draws + 1, orderEdges_perm _ _, rfl⟩

theorem takeLineEvent_rst (l : Line) (s : State) : (takeLineEvent l s).rst = s.rst := by
  unfold takeLineEvent
  simp only
  split
  · rfl
  · split
    · exact (endWait_frame _ _ _).objects.rst
    · exact (endWaits_frame _ _ _).objects.rst

theorem recogniseEdge_rst (l : Line) (e : Edge) (s : State) : (recogniseEdge l e s).rst = s.rst := by
  rw [recogniseEdge_eq]
  split
  · exact takeLineEvent_rst l _
  · rfl

/-- The edges of a sample, each taken whole, are the line events of their lines. -/
theorem foldl_lineEvents {take : Host.Outcome State Fault Refusal → Line → Host.Outcome State Fault Refusal}
    (takes : ∀ u l, take (.next u) l = exec (.lineEvent l (sampledEdge levels l)) u) (es : List (Line × Edge))
    (edges : ∀ f ∈ es, f.2 = sampledEdge levels f.1) :
    ∀ u : State, u.rst = false →
      (es.map Prod.fst).foldl take (.next u) = .next (es.foldl (fun s f => recogniseEdge f.1 f.2 s) u) := by
  induction es with
  | nil => exact fun _ _ => rfl
  | cons f es ih =>
    intro u running
    obtain ⟨edge, rest⟩ := List.forall_mem_cons.1 edges
    rw [List.map_cons, List.foldl_cons, List.foldl_cons, takes, exec_lineEvent running, ← edge]
    exact ih rest _ ((recogniseEdge_rst _ _ u).trans running)

theorem exec_lineSample_of_rst (reset : s.rst = true) (levels : Byte) : exec (.lineSample levels) s = .next s := by
  simp only [exec, execLineSample, if_pos reset]

theorem exec_lineSample (running : s.rst = false) (levels : Byte) :
    exec (.lineSample levels) s = .next (sampleLines levels s) := by
  simp only [exec, execLineSample, running, Bool.false_eq_true, if_false]

/-- Settles O43: the lines with no edge take their records, then the edges are the line events of their lines in some order. -/
theorem lineSampleFiltersAndFindsEdges : Obligations.LineSampleFiltersAndFindsEdges := by
  intro levels s level hasEdge
  refine ⟨fun reset => exec_lineSample_of_rst reset levels, fun running => ?_⟩
  obtain ⟨es, drawn, perm, sample⟩ := sampleLines_takes_edges levels s
  have lines := perm.map Prod.fst
  have line (l : Line) :
      ({ sampleQuietLines levels s with draws := drawn } : State).line l = (sampleQuietLines levels s).line l := rfl
  refine ⟨es.map Prod.fst, { sampleQuietLines levels s with draws := drawn }, drawn,
    lines.nodup_iff.2 (edgesAt_lines_nodup s levels), fun l => ?_, rfl, fun l edge => ?_, fun l first => ?_,
    fun l sampled agrees => ?_, fun l sampled differs unconfirmed => ?_, ?_⟩
  · rw [lines.mem_iff, mem_edgesAt_lines]; rfl
  · rw [line, sampleQuietLines_line_of_edge edge]
  · rw [line, sampleQuietLines_line_of_quiet fun edge => Bool.false_ne_true (first.symm.trans edge.1),
      LineRecord.sample_of_first first]
    rfl
  · rw [line, sampleQuietLines_line_of_quiet fun edge => edge.2.2 agrees]
    exact LineRecord.sample_of_agreeing sampled agrees
  · rw [line, sampleQuietLines_line_of_quiet fun edge => Bool.false_ne_true (unconfirmed.symm.trans edge.2.1)]
    exact LineRecord.sample_of_differing sampled differs
  · rw [exec_lineSample running, sample]
    refine (foldl_lineEvents (fun _ _ => ?_) es (fun f mem => (mem_edgesAt.1 (perm.mem_iff.1 mem)).2) _ ?_).symm
    · rfl
    · exact running

end

end Sys2Proof.Machine

/-! ## The commands on event lines (R136, R137, R139, R140) -/

namespace Sys2Proof.Machine

section
variable {s : State} {p : Port} {l : Line} {line option : Byte}

/-! ### Line numbers and modes -/

theorem lineOf_eq_some (names : l.val = line.toNat) : lineOf line = some l := by
  unfold lineOf
  rw [dif_pos (by omega)]
  exact congrArg some (Fin.ext names.symm)

theorem lineOf_eq_none (above : 8 ≤ line.toNat) : lineOf line = none := dif_neg (by omega)

theorem edgeModeOf_code (em : EdgeMode) : edgeModeOf em.code = some em := by
  cases em <;> rfl

theorem edgeModeOf_eq_none {b : Byte} (above : 4 ≤ b.toNat) : edgeModeOf b = none := by
  have ne (n : Byte) (small : n.toNat < 4) : b ≠ n := by rintro rfl; omega
  simp only [edgeModeOf, if_neg (ne 0 (by decide)), if_neg (ne 1 (by decide)), if_neg (ne 2 (by decide)),
    if_neg (ne 3 (by decide))]

theorem releaseModeOf_code (rm : ReleaseMode) : releaseModeOf rm.code = some rm := by
  cases rm <;> rfl

theorem releaseModeOf_eq_none {b : Byte} (no_one : b ≠ 1) (no_all : b ≠ 2) : releaseModeOf b = none := by
  simp only [releaseModeOf, if_neg no_one, if_neg no_all]

/-! ### EVT.CONFIG and EVT.QUERY (R139, R140) -/

theorem exec_evtConfig_badParam {edge release : Byte} (h : s.Submitted p .evtConfig [line, edge, release])
    (range : 8 ≤ line.toNat ∨ 4 ≤ edge.toNat ∨ (release ≠ 1 ∧ release ≠ 2)) :
    exec (.evtConfig p) s = .next (s.completed p 0x12 []) := by
  simp only [exec, execEvtConfig]
  refine command_refuses (r := .badParam) h ?_
  simp only
  split
  · next l em rm names edge_mode release_mode =>
    rcases range with above | above | ⟨no_one, no_all⟩
    · cases names.symm.trans (lineOf_eq_none above)
    · cases edge_mode.symm.trans (edgeModeOf_eq_none above)
    · cases release_mode.symm.trans (releaseModeOf_eq_none no_one no_all)
  · rfl

theorem exec_evtConfig {em : EdgeMode} {rm : ReleaseMode} (h : s.Submitted p .evtConfig [line, em.code, rm.code])
    (names : l.val = line.toNat) :
    exec (.evtConfig p) s =
      .next ((s.updLine l fun r =>
        { r with edgeMode := em, releaseMode := rm, latch := 0, saturated := false }).completed p 0x00
          [countByte (s.line l).latch, flagByte (s.line l).saturated]) := by
  simp only [exec, execEvtConfig]
  exact command_carriesOut h (by simp only [lineOf_eq_some names, edgeModeOf_code, releaseModeOf_code])

theorem exec_evtQuery_badParam (h : s.Submitted p .evtQuery [line]) (above : 8 ≤ line.toNat) :
    exec (.evtQuery p) s = .next (s.completed p 0x12 []) := by
  simp only [exec, execEvtQuery]
  exact command_refuses (r := .badParam) h (by simp only [lineOf_eq_none above])

/-- The report of a level that no sample has given draws a free value (log entry 2). -/
theorem exec_evtQuery (h : s.Submitted p .evtQuery [line]) (names : l.val = line.toNat) :
    exec (.evtQuery p) s =
      .next ({ s.updLine l (fun r => { r with saturated := false }) with
        draws := if (s.line l).sampled then s.draws else s.draws + 1 }.completed p 0x00 (s.lineSnapshot l)) := by
  simp only [exec, execEvtQuery]
  refine command_carriesOut h ?_
  simp only [lineOf_eq_some names]
  split <;> rfl

/-! ### EVT.WAIT (R136, R137) -/

theorem exec_evtWait_badParam {lo hi : Byte} (h : s.Submitted p .evtWait [line, option, lo, hi]) (ask : s.MayAsk p option)
    (above : 8 ≤ line.toNat) : exec (.evtWait p) s = .next (s.completed p 0x12 []) := by
  simp only [exec, execEvtWait]
  refine command_refuses (r := .badParam) h ?_
  simp only [lineOf_eq_none above]
  obtain ⟨_, run⟩ := withWaiter_runs ask fun _ => refuse .badParam s
  exact run

/-- EVT.WAIT on a line, its checks passed: a latched event is taken, and with none the caller waits (R137). -/
def waitOnLine (p : Port) (l : Line) (d : Option TickCount) (s : State) (caller : Option Slot) : Reply :=
  if 0 < (s.line l).latch then
    done [countByte ((s.line l).latch - 1)] (s.updLine l fun r => { r with latch := r.latch - 1 })
  else waitOr .empty p caller (.event l) d s

theorem waitOnLine_latched (latched : 0 < (s.line l).latch) (d : Option TickCount) (caller : Option Slot) :
    waitOnLine p l d s caller =
      done [countByte ((s.line l).latch - 1)] (s.updLine l fun r => { r with latch := r.latch - 1 }) := if_pos latched

theorem waitOnLine_empty (empty : (s.line l).latch = 0) (d : Option TickCount) (caller : Option Slot) :
    waitOnLine p l d s caller = waitOr .empty p caller (.event l) d s := if_neg (Nat.not_lt.2 empty.le)

theorem exec_evtWait {lo hi : Byte} (h : s.Submitted p .evtWait [line, option, lo, hi]) (ask : s.MayAsk p option)
    (range : OptionInRange option (hi ++ lo)) (names : l.val = line.toNat) :
    ∃ caller, s.Asks p option caller ∧
      exec (.evtWait p) s = .next (complete p (waitOnLine p l (s.deadlineOf option (hi ++ lo)) s caller)) := by
  have inRange : ¬waitInRange option (half lo hi) = false := by
    rw [(waitInRange_iff option (half lo hi)).2 range]
    decide
  obtain ⟨caller, asks, run⟩ := withWaiter_asks ask range (waitOnLine p l (s.deadlineOf option (hi ++ lo)) s)
  refine ⟨caller, asks, ?_⟩
  rw [← run]
  simp only [exec, execEvtWait, command_eq_complete h, lineOf_eq_some names, if_neg inRange]
  rfl

/-- Settles O41: the ranges decide the refusals; EVT.WAIT turns on the latch. -/
theorem evtCommands : Obligations.EvtCommands := by
  refine fun p s => ⟨fun line edge release h => ⟨exec_evtConfig_badParam h, ?_⟩,
    fun line h => ⟨exec_evtQuery_badParam h, fun l names => ?_⟩,
    fun line option lo hi h ask range => ⟨exec_evtWait_badParam h ask, fun l names => ?_⟩⟩
  · rintro l em rm names rfl rfl
    exact exec_evtConfig h names
  · exact ⟨s.reportedLevel l, _, fun sampled => ⟨if_pos sampled, if_pos sampled⟩, exec_evtQuery h names⟩
  · obtain ⟨caller, asks, run⟩ := exec_evtWait h ask range names
    refine ⟨fun latched => ?_, fun empty => ⟨fun no_wait => ?_, fun c d isCaller deadline => ?_⟩⟩
    · rw [run, waitOnLine_latched latched, complete_done]; rfl
    · rw [run, waitOnLine_empty empty, complete_waitOr_refused asks no_wait]; rfl
    · rw [run, waitOnLine_empty empty, complete_waitOr_begins asks isCaller deadline]

end

end Sys2Proof.Machine

/-! ## The Page Pool: first fit, serving, and the commands that make and remove runs (R147 to R150, R153, R155) -/

namespace Sys2Proof.Machine

section
variable {q : PagePool} {s : State} {p : Port} {x t : Slot}

/-! ### Free pages and first fit (R144, R148) -/

theorem PagePool.isFree_iff {k : Nat} : q.isFree k = true ↔ k < q.size ∧ ∃ h : k < 128, q.pageMap[k] = none := by
  unfold PagePool.isFree
  split
  · next inside => simp [inside]
  · next outside => simp [outside]

/-- The page starts n consecutive free pages of the pool (R148). -/
def PagePool.StartsFree (q : PagePool) (n k : Nat) : Prop :=
  ∀ i < n, k + i < q.size ∧ ∃ h : k + i < 128, q.pageMap[k + i] = none

/-- The test that first fit makes of a page. -/
theorem PagePool.all_isFree_iff {n k : Nat} :
    ((List.range n).all fun i => q.isFree (k + i)) = true ↔ q.StartsFree n k := by
  simp only [List.all_eq_true, List.mem_range, PagePool.isFree_iff, PagePool.StartsFree]

/-- A page that starts one free page or more is a page of the map. -/
theorem PagePool.StartsFree.lt {n k : Nat} (fits : q.StartsFree n k) (positive : 1 ≤ n) : k < 128 := by
  obtain ⟨-, inside, -⟩ := fits 0 positive
  exact inside

theorem PagePool.firstFit_eq_none {n : Nat} (positive : 1 ≤ n) : q.firstFit n = none ↔ ∀ k, ¬q.StartsFree n k := by
  rw [PagePool.firstFit, List.find?_eq_none]
  simp only [List.mem_range, PagePool.all_isFree_iff]
  exact ⟨fun none_fits k fits => none_fits k (fits.lt positive) fits, fun none_fits k _ => none_fits k⟩

theorem PagePool.firstFit_eq_some {n k : Nat} (positive : 1 ≤ n) :
    q.firstFit n = some k ↔ q.StartsFree n k ∧ ∀ j < k, ¬q.StartsFree n j := by
  rw [PagePool.firstFit, List.find?_range_eq_some]
  simp only [List.mem_range, Bool.not_eq_true', ← Bool.not_eq_true, PagePool.all_isFree_iff]
  exact ⟨fun ⟨fits, _, lowest⟩ => ⟨fits, lowest⟩, fun ⟨fits, lowest⟩ => ⟨fits, fits.lt positive, lowest⟩⟩

/-! ### Free entries and grants (R145, R148) -/

theorem PagePool.freeEntry_eq_none : q.freeEntry = none ↔ ∀ e : Fin 64, q.runs[e] ≠ none := by
  simp [PagePool.freeEntry]

theorem PagePool.runs_of_freeEntry {e : Fin 64} (free : q.freeEntry = some e) : q.runs[e] = none := by
  simpa using List.find?_some free

theorem PagePool.grantFor_of_fit {n k : Nat} {e : Fin 64} (entry : q.freeEntry = some e) (fit : q.firstFit n = some k) :
    q.grantFor n = some (e, k) := by
  simp only [PagePool.grantFor, entry, fit]

theorem PagePool.grantFor_eq_none {n : Nat} (lacking : q.freeEntry = none ∨ q.firstFit n = none) :
    q.grantFor n = none := by
  obtain no_entry | no_fit := lacking
  · simp only [PagePool.grantFor, no_entry]
  · rw [PagePool.grantFor, no_fit]
    cases q.freeEntry <;> rfl

/-! ### Serving, one head at a time (R150) -/

theorem serveCount_of_no_waiter (nobody : s.pool.waitQueue = []) : serveCount s = (s, 0) := by
  simp only [serveCount, nobody, List.length_nil, serveRounds]

theorem serveCount_of_blocked {rest : List Slot} (queue : s.pool.waitQueue = t :: rest)
    (blocked : s.pool.grantFor (s.askedPages t) = none) : serveCount s = (s, 0) := by
  simp only [serveCount, queue, List.length_cons, serveRounds, blocked]

/-- The head's grant is whole before the next head is examined: the rounds that are left are enough for the queue that the
end of its wait leaves. -/
theorem serveCount_of_grant {rest : List Slot} {e : Fin 64} {k : Nat} (queue : s.pool.waitQueue = t :: rest)
    (grant : s.pool.grantFor (s.askedPages t) = some (e, k)) :
    serveCount s =
      ((serveCount (endWait t (.ok (.page (BitVec.ofNat 8 k))) (s.granted t rest e k))).1,
        (serveCount (endWait t (.ok (.page (BitVec.ofNat 8 k))) (s.granted t rest e k))).2 + 1) := by
  have shorter := (endWait_frame t (.ok (.page (BitVec.ofNat 8 k))) (s.granted t rest e k)).objects.waitQueue.length_le
  rw [State.granted_waitQueue] at shorter
  have enough := serveRounds_enough rest.length _ _ shorter le_rfl
  simp only [serveCount, queue, List.length_cons, serveRounds, grant, ← enough]
  rfl

/-- Settles O44: the search of the pages, the search of the entries, and one round of serving. -/
theorem firstFitAndServing : Obligations.FirstFitAndServing := by
  refine ⟨fun q n positive => ⟨PagePool.firstFit_eq_none positive, fun k => PagePool.firstFit_eq_some positive⟩,
    fun q => ⟨PagePool.freeEntry_eq_none, fun e => PagePool.runs_of_freeEntry⟩,
    fun s => ⟨serveCount_of_no_waiter, fun t rest queue => ⟨fun lacking => ?_, fun e k entry fit => ?_⟩⟩⟩
  · exact serveCount_of_blocked queue (PagePool.grantFor_eq_none lacking)
  · exact serveCount_of_grant queue (PagePool.grantFor_of_fit entry fit)

/-! ### PAGE.ALLOC (R147 to R149) -/

theorem allocate_granted {n k : Nat} {e : Fin 64} (nobody : s.pool.waitQueue = []) (grant : s.pool.grantFor n = some (e, k))
    (option : Byte) (d : Option TickCount) :
    allocate p x n option d s = done [countByte k] (s.updPool (·.createRun e k n x)) := by
  simp only [allocate, nobody, grant]

theorem allocate_not_granted {n : Nat} (unmet : s.pool.waitQueue ≠ [] ∨ s.pool.grantFor n = none) (option : Byte)
    (d : Option TickCount) :
    allocate p x n option d s =
      if option = 0 then refuse (if s.pool.freeEntry.isNone then .noRuns else .noPages) s
      else beganWait (beginWait p x (.pages n) d s) := by
  unfold allocate
  split
  · next nobody grant =>
    rcases unmet with waiting | no_grant
    · exact absurd nobody waiting
    · cases grant.symm.trans no_grant
  · rfl

/-- The parameters of PAGE.ALLOC are in range (R147). -/
def State.MayAllocate (s : State) (n option : Byte) (timeout : Half) : Prop :=
  1 ≤ n.toNat ∧ n.toNat ≤ 32 ∧ n.toNat ≤ s.pool.size ∧ OptionInRange option timeout

/-- The test that PAGE.ALLOC makes of its parameters. -/
theorem mayAllocate_iff {n option : Byte} {timeout : Half} :
    s.MayAllocate n option timeout ↔
      ¬(n = 0 ∨ 32 < n.toNat ∨ s.pool.size < n.toNat ∨ waitInRange option timeout = false) := by
  have positive : 1 ≤ n.toNat ↔ n ≠ 0 := by bv_omega
  simp only [State.MayAllocate, positive, not_or, not_lt, Bool.not_eq_false, waitInRange_iff, ne_eq]

section Alloc
variable {n option lo hi : Byte} (caller : s.IsCaller p x) (h : s.Submitted p .pageAlloc [n, option, lo, hi])
include caller h

theorem exec_pageAlloc_badParam (range : ¬s.MayAllocate n option (hi ++ lo)) :
    exec (.pageAlloc p) s = .next (s.completed p 0x12 []) := by
  simp only [exec, execPageAlloc]
  refine command_refuses (r := .badParam) h ?_
  have outside := not_not.1 (mt (mayAllocate_iff (timeout := half lo hi)).2 range)
  simp only [withCaller_of_isCaller caller, if_pos outside]

theorem exec_pageAlloc (range : s.MayAllocate n option (hi ++ lo)) :
    exec (.pageAlloc p) s =
      .next (complete p (allocate p x n.toNat option (s.deadlineOf option (hi ++ lo)) s)) := by
  have inside := (mayAllocate_iff (timeout := half lo hi)).1 range
  simp only [exec, execPageAlloc, command_eq_complete h, withCaller_of_isCaller caller, if_neg inside]
  rfl

end Alloc

/-- Settles O45: by the range of the parameters, then by whether the request is granted. -/
theorem pageAllocGrantsRefusesOrWaits : Obligations.PageAllocGrantsRefusesOrWaits := by
  refine fun p s x n option lo hi caller h => ⟨exec_pageAlloc_badParam caller h, fun e k range nobody entry fit => ?_,
    fun range unmet => ?_⟩
  · rw [exec_pageAlloc caller h range, allocate_granted nobody (PagePool.grantFor_of_fit entry fit), complete_done]
    rfl
  · have run := exec_pageAlloc caller h range
    rw [allocate_not_granted (unmet.imp_right PagePool.grantFor_eq_none)] at run
    refine ⟨fun no_wait full => ?_, fun no_wait room => ?_, fun d deadline => ?_⟩
    · rw [run, if_pos no_wait, complete_refuse, full]; rfl
    · rw [run, if_pos no_wait, complete_refuse, if_neg (by simpa using room)]; rfl
    · have waits : option ≠ 0 := by
        obtain ⟨rfl, -⟩ | ⟨rfl, -⟩ := deadline <;> decide
      rw [run, if_neg waits, complete_eq_completed, deadlineOf_of_deadlineIs deadline, beganWait_completed]

/-! ### PAGE.FREE and PAGE.RECLAIM (R153, R155) -/

theorem PagePool.removeRun_eq {e : Fin 64} {r : Run} (hr : q.runs[e] = some r) :
    q.removeRun e =
      { q with
        runs := q.runs.set e none
        pageMap := Vector.ofFn fun k : Fin 128 =>
          if r.first ≤ k.val ∧ k.val < r.first + r.length then none else q.pageMap[k]
        freePages := q.freePages + r.length } := by
  unfold PagePool.removeRun
  rw [hr]

section Remove
variable {page : Byte}

/-- What PAGE.FREE of a page of the pool answers its caller (R153). -/
def State.freeRun (s : State) (x : Slot) (page : Byte) : Reply :=
  match s.ownRun x page with
  | .error r => refuse r s
  | .ok (e, run) => done [countByte run.length, countByte (removeAndServe e s).2] (removeAndServe e s).1

/-- What PAGE.RECLAIM of a page of the pool answers (R155). -/
def State.reclaimRun (s : State) (page : Byte) : Reply :=
  match s.pool.runAt page.toNat with
  | none => refuse .notRun s
  | some (e, run) =>
    done (halfBytes (s.handle run.owner) ++ [countByte run.length, countByte (removeAndServe e s).2]) (removeAndServe e s).1

theorem exec_pageFree (caller : s.IsCaller p x) (h : s.Submitted p .pageFree [page]) :
    exec (.pageFree p) s =
      .next (complete p (if s.pool.size ≤ page.toNat then refuse .badParam s else s.freeRun x page)) := by
  simp only [exec, execPageFree, command_eq_complete h, withCaller_of_isCaller caller]
  rfl

theorem exec_pageReclaim (h : s.Submitted p .pageReclaim [page]) :
    exec (.pageReclaim p) s =
      .next (complete p (if s.pool.size ≤ page.toNat then refuse .badParam s else s.reclaimRun page)) := by
  simp only [exec, execPageReclaim, command_eq_complete h]
  rfl

end Remove

/-- Settles O46: both commands run their bodies, which turn on the run that the page names. -/
theorem pageFreeAndReclaimRemoveARun : Obligations.PageFreeAndReclaimRemoveARun := by
  intro p s page start removing noRun oneRun
  have removed {e : Fin 64} {r : Run} (hr : s.pool.runs[e] = some r) : removeAndServe e s = removing e r := by
    rw [removeAndServe, State.updPool, PagePool.removeRun_eq hr]
  refine ⟨fun x caller h => ?_, fun h => ?_⟩
  · have run := exec_pageFree caller h
    refine ⟨fun outside => ?_, fun inside none_starts => ?_,
      fun e r inside ⟨hr, starts, one⟩ => ⟨fun other => ?_, fun own => ?_⟩⟩
    · rw [run, if_pos outside, complete_refuse]; rfl
    all_goals rw [run, if_neg (Nat.not_le.2 inside), State.freeRun, State.ownRun]
    · simp only [PagePool.runAt_eq_none none_starts, complete_refuse]; rfl
    · simp only [PagePool.runAt_eq_some hr starts one, if_neg other, complete_refuse]; rfl
    · simp only [PagePool.runAt_eq_some hr starts one, if_pos own, complete_done, removed hr]; rfl
  · have run := exec_pageReclaim h
    refine ⟨fun outside => ?_, fun inside none_starts => ?_, fun e r inside ⟨hr, starts, one⟩ => ?_⟩
    · rw [run, if_pos outside, complete_refuse]; rfl
    all_goals rw [run, if_neg (Nat.not_le.2 inside), State.reclaimRun]
    · simp only [PagePool.runAt_eq_none none_starts, complete_refuse]; rfl
    · simp only [PagePool.runAt_eq_some hr starts one, complete_done, removed hr]; rfl

end

end Sys2Proof.Machine

/-! ## What the operations leave of the ports (R45, R46, R171)

The Dispatcher's frame of a port holds of every operation but an accept, a port loss and PORT.ENABLE, and no operation
touches the queue of commands. -/

namespace Sys2Proof.Machine

/-- The ports stand as the Dispatcher leaves them, and the queue of commands is the same. -/
structure PortsFramed (s u : State) : Prop where
  port : ∀ p, PortFrame (s.port p) (u.port p)
  pending : u.pending = s.pending

section
variable {s u v : State} {p : Port} {x t : Slot}

theorem PortsFramed.refl (s : State) : PortsFramed s s := ⟨fun _ => .refl _, rfl⟩

theorem PortsFramed.trans (h : PortsFramed s u) (k : PortsFramed u v) : PortsFramed s v :=
  ⟨fun p => (h.port p).trans (k.port p), k.pending.trans h.pending⟩

theorem PortsFramed.of_same (port : ∀ p, u.port p = s.port p) (pending : u.pending = s.pending) : PortsFramed s u :=
  ⟨fun p => port p ▸ .refl _, pending⟩

theorem ObjectFrame.ports (h : ObjectFrame s u) : PortsFramed s u := ⟨h.port, h.pending⟩

theorem WaitFrame.ports (h : WaitFrame s u) : PortsFramed s u := h.objects.ports

theorem DispatchFrame.ports (h : DispatchFrame s u) : PortsFramed s u := ⟨h.port, h.pending⟩

/-! ### The updates -/

theorem PortsFramed.updTask (s : State) (t : Slot) (f : TaskRecord → TaskRecord) : PortsFramed s (s.updTask t f) :=
  .of_same (by simp) rfl

theorem PortsFramed.updPool (s : State) (f : PagePool → PagePool) : PortsFramed s (s.updPool f) := .of_same (by simp) rfl

theorem PortsFramed.updLine (s : State) (l : Line) (f : LineRecord → LineRecord) : PortsFramed s (s.updLine l f) :=
  .of_same (by simp) rfl

theorem PortsFramed.updMailbox (s : State) (x : Fin 16) (f : Mailbox → Mailbox) : PortsFramed s (s.updMailbox x f) :=
  .of_same (by simp) (by simp)

theorem PortsFramed.updCounter (s : State) (x : Fin 16) (f : Counter → Counter) : PortsFramed s (s.updCounter x f) :=
  .of_same (by simp) (by simp)

theorem PortsFramed.setTime (s : State) (time : TickUnit) : PortsFramed s { s with time := time } :=
  .of_same (fun p => by cases p <;> rfl) rfl

theorem PortsFramed.draw (s : State) (n : Nat) : PortsFramed s { s with draws := n } :=
  .of_same (fun p => by cases p <;> rfl) rfl

/-- An occupied port may be given a disposition. -/
theorem PortsFramed.setDisposition (h : PortsFramed s u) (occupied : (s.port p).occ.occupant = some x) (d : Disposition) :
    PortsFramed s (u.setDisposition p d) :=
  h.trans (setDisposition_frame u p d (.inl (by rw [(h.port p).occupant, occupied]; simp))).ports

theorem PortsFramed.redecide (h : PortsFramed s u) (p : Port) (gone : Bool) : PortsFramed s (redecide p gone u) :=
  h.trans (redecide_frame p gone u).ports

theorem PortsFramed.isEnabled (h : PortsFramed s u) (p : Port) : (u.port p).isEnabled = (s.port p).isEnabled := by
  rw [PortRecord.isEnabled, (h.port p).lifecycle, PortRecord.isEnabled]

theorem PortsFramed.offerTask (h : PortsFramed s u) (enabled : (s.port p).isEnabled = true) (t : Slot) :
    PortsFramed s (offerTask p t u) :=
  h.trans (offerTask_frame p t u (by rw [h.isEnabled, enabled])).ports

theorem PortsFramed.serve (h : PortsFramed s u) : PortsFramed s (serve u) := h.trans (serve_frame u).1.ports

/-! ### Waits (R9, R51) -/

theorem joinList_ports (t : Slot) (k : WaitKind) (s : State) : PortsFramed s (joinList t k s) := by
  unfold joinList
  split
  case h_1 => exact .refl s
  case h_2 | h_3 =>
    split
    · exact .refl s
    · exact .updMailbox s _ _
  case h_4 =>
    split
    · exact .refl s
    · exact .updCounter s _ _
  case h_5 => exact .updLine s _ _
  case h_6 => exact .updPool s _

theorem insertTimer_ports (t : Slot) (d : Option TickCount) (s : State) : PortsFramed s (insertTimer t d s) :=
  .of_same (by simp) (by simp)

theorem beginWait_ports (occupied : (s.port p).occ.occupant = some x) (kind : WaitKind) (d : Option TickCount) :
    PortsFramed s (beginWait p x kind d s) :=
  ((((PortsFramed.updTask s x _).trans (joinList_ports x kind _)).trans (insertTimer_ports x d _)).setDisposition
    occupied .wait).redecide p false

theorem repositionWaiter_ports (t : Slot) (s : State) : PortsFramed s (repositionWaiter t s) := by
  unfold repositionWaiter
  split
  · exact .refl s
  · split
    case h_1 | h_2 =>
      split
      · exact .refl s
      · split
        · exact .updMailbox s _ _
        · exact .refl s
    case h_3 =>
      split
      · exact .refl s
      · split
        · exact .updCounter s _ _
        · exact .refl s
    all_goals exact .refl s

/-! ### Tasks (R12 to R20, R40, R61) -/

theorem firstPeer_enabled {f : Slot} (h : s.firstPeer p x = some f) : (s.port p).isEnabled = true := by
  have eligible : s.eligible p f = true := List.find?_some h
  rw [State.eligible, Bool.and_eq_true] at eligible
  exact eligible.2

theorem yieldPort_ports (occupied : (s.port p).occ.occupant = some x) : PortsFramed s (yieldPort p x s) := by
  have revised := (PortsFramed.refl s).setDisposition occupied .readyTail
  unfold yieldPort
  split
  · exact .refl s
  · next f peer =>
    split
    case h_1 | h_2 => exact revised.offerTask (firstPeer_enabled peer) f
    case h_3 => exact revised.redecide p false
    all_goals exact .refl s

theorem sliceExpired_ports (occupied : (s.port p).occ.occupant = some x) : PortsFramed s (sliceExpired p x s) := by
  unfold sliceExpired
  split
  · next f peer => exact ((PortsFramed.refl s).setDisposition occupied .readyTail).offerTask (firstPeer_enabled peer) f
  · exact .updTask s x _

theorem countQuantum_ports (p : Port) (s : State) : PortsFramed s (countQuantum p s) := by
  unfold countQuantum
  split
  · split
    · exact .refl s
    · next x occupied =>
      have counted := PortsFramed.updTask s x fun r => { r with remaining := r.remaining - 1 }
      simp only
      split
      · exact counted.trans (sliceExpired_ports (by rw [State.updTask_port]; exact occupied))
      · exact counted
  · exact .refl s

theorem becomeHeld_ports (t : Slot) (s : State) : PortsFramed s (becomeHeld t s) := (becomeHeld_frame t s).ports

theorem setHoldFlag_ports (t : Slot) (s : State) : PortsFramed s (setHoldFlag t s) := .updTask s t _

theorem clearHoldFlag_ports (t : Slot) (s : State) : PortsFramed s (clearHoldFlag t s) := .updTask s t _

theorem holdTask_ports (t : Slot) (s : State) : PortsFramed s (holdTask t s).state := by
  unfold holdTask
  split
  case h_4 => exact (unqueue_frame t s).ports.trans (becomeHeld_ports t _)
  case h_5 =>
    split
    · exact (becomeHeld_ports t s).redecide _ true
    · exact becomeHeld_ports t s
  case h_6 =>
    split
    · exact .refl s
    · exact setHoldFlag_ports t s
  case h_7 =>
    split
    · exact .refl s
    · next p on =>
      split
      case h_5 =>
        split
        · exact .refl s
        · exact setHoldFlag_ports t s
      case h_6 | h_7 => exact .refl s
      all_goals exact ((PortsFramed.updTask s t _).setDisposition (portOfOccupant_occupied on) .held).redecide p false
  all_goals exact .refl s

theorem releaseTask_ports (t : Slot) (s : State) : PortsFramed s (releaseTask t s).state := by
  unfold releaseTask
  split
  case h_5 => exact (PortsFramed.updTask s t _).trans (readyTail_frame t _).ports
  case h_6 =>
    split
    · exact clearHoldFlag_ports t s
    · exact .refl s
  case h_7 =>
    split
    · exact .refl s
    · next p on =>
      split
      case h_1 => exact ((PortsFramed.updTask s t _).setDisposition (portOfOccupant_occupied on) .readyTail).redecide p false
      case h_2 =>
        split
        · exact clearHoldFlag_ports t s
        · exact .refl s
      all_goals exact .refl s
  all_goals exact .refl s

theorem setAffinity_ports (t : Slot) (a : Affinity) (s : State) : PortsFramed s (setAffinity t a s).state := by
  have written := PortsFramed.updTask s t fun r => { r with affinity := a }
  unfold setAffinity
  simp only
  split
  case h_1 | h_2 => exact .refl s
  case h_3 =>
    rw [done_state]
    split
    · exact written
    · exact written.trans (place_frame t _).ports
  all_goals exact written

theorem setpriOccupant_ports (occupied : (s.port p).occ.occupant = some t) (less : Bool) :
    PortsFramed s (setpriOccupant p t less s) := by
  have here := PortsFramed.refl s
  unfold setpriOccupant
  split
  case h_1 =>
    split
    · exact here.redecide p false
    · exact here
  case h_2 | h_3 => exact (here.setDisposition occupied .readyTail).redecide p false
  case h_4 => exact here.redecide p false
  case h_5 => exact repositionWaiter_ports t s
  all_goals exact here

theorem setPriority_ports (t : Slot) (priority : Fin 32) (s : State) : PortsFramed s (setPriority t priority s) := by
  have write (s : State) : PortsFramed s (s.updTask t fun r => { r with priority := priority }) := .updTask s t _
  unfold setPriority
  simp only
  split
  · exact .refl s
  · split
    case h_4 => exact ((unqueue_frame t s).ports.trans (write _)).trans (readyTail_frame t _).ports
    case h_5 =>
      split
      · split
        · exact (write s).redecide _ false
        · exact write s
      · exact write s
    case h_6 => exact (write s).trans (repositionWaiter_ports t _)
    case h_7 =>
      split
      · next p on =>
        exact (write s).trans (setpriOccupant_ports (by rw [State.updTask_port]; exact portOfOccupant_occupied on) _)
      · exact write s
    all_goals exact write s

theorem doom_ports (occupied : (s.port p).occ.occupant = some t) : PortsFramed s (doom p t s) := by
  have cancelled := (((cancelWait_frame t s).ports.trans (.updTask _ t TaskRecord.doom))).setDisposition occupied .free
  rw [doom_eq]
  split
  · split
    · exact cancelled.serve
    · exact cancelled
  · exact (PortsFramed.updTask s t TaskRecord.doom).setDisposition occupied .free

theorem deleteTask_ports (t : Slot) (s : State) : PortsFramed s (deleteTask t s) := by
  have next : PortsFramed s (nextGeneration t s) := .updTask s t _
  have retired (wasHead : Bool) (s : State) := (retire_objects t wasHead s).ports
  unfold deleteTask
  simp only
  split
  case h_1 => exact .refl s
  case h_2 | h_3 => exact next.trans (retired false _)
  case h_4 => exact (next.trans (unqueue_frame t _).ports).trans (retired false _)
  case h_5 =>
    split
    · exact (next.redecide _ true).trans (retired false _)
    · exact next.trans (retired false _)
  case h_6 => exact (next.trans (cancelWait_frame t _).ports).trans (retired _ _)
  case h_7 =>
    split
    · next p on => exact (doom_ports (portOfOccupant_occupied on)).trans (redecideDeleted_frame p _).ports
    · exact .refl s

/-! ### Exchanges (R74 to R108) -/

theorem waitOr_ports {caller : Option Slot} (occupied : ∀ x, caller = some x → (s.port p).occ.occupant = some x)
    (refusal : Result) (kind : WaitKind) (d : Option TickCount) : PortsFramed s (waitOr refusal p caller kind d s).state := by
  cases caller with
  | none => exact .refl s
  | some x => exact beginWait_ports (occupied x rfl) kind d

theorem handMessage_ports (y : Fin 16) (t : Slot) (m : Message) (s : State) : PortsFramed s (handMessage y t m s) :=
  (handMessage_objects y t m s).ports

theorem queueMessage_ports (y : Fin 16) (m : Message) (s : State) : PortsFramed s (queueMessage y m s) := .updMailbox s y _

theorem deliverOrQueue_ports (y : Fin 16) (m : Message) (s : State) : PortsFramed s (deliverOrQueue y m s) := by
  unfold deliverOrQueue
  split
  · exact handMessage_ports y _ m s
  · exact queueMessage_ports y m s

theorem refillRounds_ports (y : Fin 16) (n : Nat) : ∀ s : State, PortsFramed s (refillRounds n y s) := by
  induction n with
  | zero => exact fun s => .refl s
  | succ n ih =>
    intro s
    unfold refillRounds
    split
    · exact .refl s
    · split
      · split
        · exact .refl s
        · next t rest _ =>
          have left : PortsFramed s (endWait t (.ok .none) (s.updMailbox y fun b => { b with senders := rest })) :=
            (PortsFramed.updMailbox s y _).trans (endWait_frame t _ _).ports
          refine PortsFramed.trans ?_ (ih _)
          split
          · exact left.trans (deliverOrQueue_ports y _ _)
          · exact left
      · exact .refl s

section
variable {caller : Option Slot} (occupied : ∀ x, caller = some x → (s.port p).occ.occupant = some x)
include occupied

theorem sendMessage_ports (d : Option TickCount) (id : Byte) (y : Fin 16) (m : Message) :
    PortsFramed s (sendMessage p caller d id y m s).state := by
  unfold sendMessage
  split
  · exact .refl s
  · split
    · exact handMessage_ports y _ m s
    · split
      · exact queueMessage_ports y m s
      · exact waitOr_ports occupied _ _ d

theorem receiveMessage_ports (d : Option TickCount) (id low high : Byte) (y : Fin 16) :
    PortsFramed s (receiveMessage p caller d id low high y s).state := by
  unfold receiveMessage
  split
  · exact .refl s
  · split
    · exact (PortsFramed.updMailbox s y _).trans (refillRounds_ports y _ _)
    · exact waitOr_ports occupied _ _ d

theorem acquireUnit_ports (d : Option TickCount) (id : Byte) (y : Fin 16) :
    PortsFramed s (acquireUnit p caller d id y s).state := by
  unfold acquireUnit
  split
  · exact .refl s
  · exact .refl s
  · split
    · exact .updCounter s y _
    · exact waitOr_ports occupied _ _ d

end

theorem releaseUnit_ports (y : Fin 16) (s : State) : PortsFramed s (releaseUnit y s).state := by
  unfold releaseUnit
  split
  · exact .refl s
  · exact .refl s
  · split
    · exact (PortsFramed.updCounter s y _).trans (endWait_frame _ _ _).ports
    · split
      · exact .updCounter s y _
      · exact .refl s

theorem openExchange_ports (e : ExchangeState) (cells : Nat) (s : State) : PortsFramed s (openExchange e cells s).state := by
  unfold openExchange
  split
  · exact .refl s
  · split
    · exact .refl s
    · exact .of_same (fun q => by cases q <;> rfl) rfl

theorem closeExchange_ports (y : Fin 16) (s : State) : PortsFramed s (closeExchange y s).state :=
  (endWaits_frame (s.exchange y).state.waiters .closed s).ports.trans (.of_same (fun q => by cases q <;> rfl) rfl)

/-! ### Lines (R131 to R134) -/

theorem takeLineEvent_ports (l : Line) (s : State) : PortsFramed s (takeLineEvent l s) := by
  unfold takeLineEvent
  simp only
  split
  · exact .updLine s l _
  · split
    · exact (PortsFramed.updLine s l _).trans (endWait_frame _ _ _).ports
    · exact (PortsFramed.updLine s l _).trans (endWaits_frame _ _ _).ports

theorem recogniseEdge_ports (l : Line) (e : Edge) (s : State) : PortsFramed s (recogniseEdge l e s) := by
  unfold recogniseEdge
  simp only
  split
  · exact (PortsFramed.updLine s l _).trans (takeLineEvent_ports l _)
  · exact .updLine s l _

theorem recogniseEdges_ports (es : List (Line × Edge)) :
    ∀ s : State, PortsFramed s (es.foldl (fun s e => recogniseEdge e.1 e.2 s) s) := by
  induction es with
  | nil => exact fun s => .refl s
  | cons e es ih => exact fun s => (recogniseEdge_ports e.1 e.2 s).trans (ih _)

theorem sampleLines_ports (levels : Byte) (s : State) : PortsFramed s (sampleLines levels s) := by
  have quiet : PortsFramed s (sampleQuietLines levels s) := .of_same (fun p => by cases p <;> rfl) rfl
  unfold sampleLines
  simp only
  split
  · exact quiet
  · exact quiet.trans (recogniseEdge_ports _ _ _)
  · exact (quiet.trans (.draw _ _)).trans (recogniseEdges_ports _ _)

/-! ### Time (R112, R118 to R125) -/

theorem expire_ports (t : Slot) (s : State) : PortsFramed s (expire t s) := by
  have ended := (endWait_frame t (expiryDelivery (s.task t).wait) s).ports
  unfold expire
  split
  · simp only
    split
    · exact ended.serve
    · exact ended
  · exact .refl s

theorem expireAll_ports (due : List Slot) : ∀ s : State, PortsFramed s (due.foldl (fun s t => expire t s) s) := by
  induction due with
  | nil => exact fun s => .refl s
  | cons t due ih => exact fun s => (expire_ports t s).trans (ih _)

theorem countQuanta_ports (s : State) : PortsFramed s (countQuanta s) := by
  unfold countQuanta
  simp only
  split
  · split
    · exact ((PortsFramed.draw s _).trans (countQuantum_ports .B _)).trans (countQuantum_ports .A _)
    · exact ((PortsFramed.draw s _).trans (countQuantum_ports .A _)).trans (countQuantum_ports .B _)
  · exact (countQuantum_ports .A s).trans (countQuantum_ports .B _)

theorem tickWhole_ports (s : State) : PortsFramed s (tickWhole s) :=
  ((PortsFramed.setTime s _).trans (expireAll_ports _ (startPeriod s))).trans (countQuanta_ports _)

theorem clkPeriod_ports (s : State) : PortsFramed s (clkPeriod s) := by
  unfold clkPeriod
  split
  · exact .refl s
  · split
    · exact .setTime s _
    · split
      · exact .setTime s _
      · exact tickWhole_ports s

/-! ### Pages (R148, R153, R155) -/

theorem allocate_ports (occupied : (s.port p).occ.occupant = some x) (n : Nat) (option : Byte) (d : Option TickCount) :
    PortsFramed s (allocate p x n option d s).state := by
  unfold allocate
  split
  · exact .updPool s _
  · split
    · exact .refl s
    · exact beginWait_ports occupied _ d

theorem removeAndServe_ports (e : Fin 64) (s : State) : PortsFramed s (removeAndServe e s).1 :=
  (PortsFramed.updPool s _).serve

end

end Sys2Proof.Machine

/-! ## What a row does to the ports (R161 to R171, R177 to R183) -/

namespace Sys2Proof.Machine

/-- What is left of a port by a row of the other: all but its offer, its disposition, its sequence counter and its
interrupt causes, of which none is cleared and DONE does not become pending. -/
structure PeerFrame (r r' : PortRecord) : Prop where
  lifecycle : r'.lifecycle = r.lifecycle
  prst : r'.prst = r.prst
  occupant : r'.occ.occupant = r.occ.occupant
  acceptStatus : r'.occ.acceptStatus = r.occ.acceptStatus
  unit : r'.unit = { r.unit with intp := r'.unit.intp }
  pends : ∀ i, r.unit.intp.getLsbD i = true → r'.unit.intp.getLsbD i = true
  done : r'.unit.intp.getLsbD 1 = r.unit.intp.getLsbD 1

/-- The queue of commands is the same, and each port that is lawful stays lawful. -/
structure PortsKept (s u : State) : Prop where
  pending : u.pending = s.pending
  lawful : ∀ q, (s.port q).Lawful → (u.port q).Lawful

/-- And of the other port the records are left. -/
structure PortMove (p : Port) (s u : State) : Prop extends PortsKept s u where
  peer : PeerFrame (s.port (otherPort p)) (u.port (otherPort p))

/-- The outcome is a next state that stands in the relation to the state before. -/
def Answers (R : State → State → Prop) (s : State) (o : Host.Outcome State Fault Refusal) : Prop := ∃ u, o = .next u ∧ R s u

section
variable {r a b c : PortRecord} {s u v : State} {p : Port} {R : State → State → Prop}

/-! ### The other port -/

theorem PeerFrame.refl (r : PortRecord) : PeerFrame r r := ⟨rfl, rfl, rfl, rfl, rfl, fun _ => id, rfl⟩

theorem PeerFrame.trans (h : PeerFrame a b) (k : PeerFrame b c) : PeerFrame a c where
  lifecycle := k.lifecycle.trans h.lifecycle
  prst := k.prst.trans h.prst
  occupant := k.occupant.trans h.occupant
  acceptStatus := k.acceptStatus.trans h.acceptStatus
  unit := by rw [k.unit, h.unit]
  pends i set := k.pends i (h.pends i set)
  done := k.done.trans h.done

/-- Another cause than DONE becomes pending (R171). -/
theorem PeerFrame.raise (r : PortRecord) {cause : Cause} (other : cause ≠ .done) : PeerFrame r (r.raise cause) := by
  have mask : cause.mask.getLsbD 1 = false := by
    cases cause with
    | done => exact absurd rfl other
    | offer | peerDown | peerUp => rfl
  unfold PortRecord.raise
  split
  · exact .refl r
  · exact ⟨rfl, rfl, rfl, rfl, rfl, fun i set => by simp [set], (BitVec.getLsbD_or).trans (by rw [mask, Bool.or_false])⟩

/-- The Dispatcher makes only OFFER pending. -/
theorem PortFrame.peer (h : PortFrame a b) : PeerFrame a b where
  lifecycle := h.lifecycle
  prst := h.prst
  occupant := h.occupant
  acceptStatus := h.acceptStatus
  unit := h.unit
  pends i set := by
    rcases h.intp with same | ⟨-, offered⟩
    · rw [same, set]
    · simp [offered, set]
  done := by
    rcases h.intp with same | ⟨-, offered⟩
    · rw [same]
    · simp [offered, Cause.mask]

/-! ### Moves -/

theorem PortsKept.refl (s : State) : PortsKept s s := ⟨rfl, fun _ => id⟩

theorem PortsKept.trans (h : PortsKept s u) (k : PortsKept u v) : PortsKept s v :=
  ⟨k.pending.trans h.pending, fun q => k.lawful q ∘ h.lawful q⟩

theorem PortMove.refl (p : Port) (s : State) : PortMove p s s := ⟨.refl s, .refl _⟩

theorem PortMove.trans (h : PortMove p s u) (k : PortMove p u v) : PortMove p s v :=
  ⟨h.toPortsKept.trans k.toPortsKept, h.peer.trans k.peer⟩

theorem PortsFramed.kept (h : PortsFramed s u) : PortsKept s u := ⟨h.pending, fun q => (h.port q).lawful⟩

theorem PortsFramed.move (h : PortsFramed s u) (p : Port) : PortMove p s u := ⟨h.kept, (h.port _).peer⟩

/-- A change of one port's record that is lawful where the record was. -/
theorem PortsKept.updPort {f : PortRecord → PortRecord} (lawful : (s.port p).Lawful → (f (s.port p)).Lawful) :
    PortsKept s (s.updPort p f) := by
  refine ⟨by simp, fun q h => ?_⟩
  rw [State.updPort_port]
  split
  · next same => exact lawful (same ▸ h)
  · exact h

theorem PortMove.updPort {f : PortRecord → PortRecord} (lawful : (s.port p).Lawful → (f (s.port p)).Lawful) :
    PortMove p s (s.updPort p f) :=
  ⟨.updPort lawful, by rw [State.updPort_port_other]; exact .refl _⟩

/-- Another cause than DONE becomes pending on the other port. -/
theorem PortMove.raisePeer (p : Port) (s : State) {cause : Cause} (other : cause ≠ .done) :
    PortMove p s (s.raise (otherPort p) cause) where
  toPortsKept := .updPort fun h => h.raise cause
  peer := by
    rw [State.raise_port, if_pos rfl]
    exact .raise _ other

/-- A change of the Port Unit within its bounds, with PRST released (R163). -/
theorem PortMove.updUnit {f : PortUnit → PortUnit} (released : (s.port p).prst = false)
    (bounded : (s.port p).unit.Bounded → (f (s.port p).unit).Bounded) : PortMove p s (s.updUnit p f) :=
  .updPort fun h => h.unit (bounded h.bounded) fun asserted => by rw [released] at asserted; cases asserted

/-! ### Taking and completing (R164, R165) -/

theorem answers_next (h : R s u) : Answers R s (.next u) := ⟨u, rfl, h⟩

theorem Answers.mono {R' : State → State → Prop} {o : Host.Outcome State Fault Refusal} (h : Answers R s o)
    (weaker : ∀ u, R s u → R' s u) : Answers R' s o := by
  obtain ⟨u, e, related⟩ := h
  exact ⟨u, e, weaker u related⟩

theorem take_answers {code : CommandCode} {k : List Byte → State → State} (unsubmitted : R s s)
    (submitted : ∀ params, s.Submitted p code params → R s (k params s)) : Answers R s (take p code k s) := by
  unfold take
  cases e : (s.port p).unit.command with
  | none => exact answers_next unsubmitted
  | some sub =>
    simp only
    split
    · next same => exact answers_next (submitted sub.params (by rw [State.Submitted, e, ← same]))
    · exact answers_next unsubmitted

theorem command_answers {code : CommandCode} {body : List Byte → State → Reply} (unsubmitted : R s s)
    (submitted : ∀ params, s.Submitted p code params → R s (complete p (body params s))) :
    Answers R s (command p code body s) := take_answers unsubmitted submitted

theorem access_answers {f : State → State} (closed : R s s) (opened : (s.port p).prst = false → R s (f s)) :
    Answers R s (access p f s) := by
  unfold access
  split
  · next isOpen =>
    simp only [State.windowOpen, Bool.and_eq_true, Bool.not_eq_true'] at isOpen
    exact answers_next (opened isOpen.1)
  · exact answers_next closed

/-- The reply of a command submitted on a port: its bytes fit the result list (R163). -/
structure Reply.Moves (p : Port) (s : State) (r : Reply) : Prop where
  state : PortMove p s r.state
  bytes : r.bytes.length ≤ 8

theorem complete_moves {r : Reply} (h : r.Moves p s) : PortMove p s (complete p r) := by
  refine h.state.trans ?_
  rw [complete_eq_completed]
  refine .updPort fun lawful => ?_
  obtain ⟨staging, -, -⟩ := lawful.bounded
  refine lawful.unit ⟨staging, h.bytes, fun _ e => by cases e⟩ fun asserted => ⟨?_, rfl⟩
  obtain ⟨-, none_pending, -⟩ := lawful.quietUnderReset asserted
  simp only [asserted, if_true]
  exact none_pending

theorem command_moves {code : CommandCode} {body : List Byte → State → Reply}
    (moves : ∀ params, s.Submitted p code params → (body params s).Moves p s) :
    Answers (PortMove p) s (command p code body s) :=
  command_answers (.refl p s) fun params submitted => complete_moves (moves params submitted)

theorem refuse_moves (p : Port) (r : Result) (s : State) : (refuse r s).Moves p s := ⟨.refl p s, Nat.zero_le _⟩

theorem done_moves (h : PortsFramed s u) (bytes : List Byte) (len : bytes.length ≤ 8 := by decide) : (done bytes u).Moves p s :=
  ⟨h.move p, len⟩

theorem reply_moves {r : Reply} (h : PortsFramed s r.state) (len : r.bytes.length ≤ 8) : r.Moves p s := ⟨h.move p, len⟩

theorem withCaller_moves {k : Slot → Reply} (moves : ∀ x, (s.port p).occ.occupant = some x → (k x).Moves p s) :
    (withCaller p s k).Moves p s := by
  unfold withCaller
  cases e : s.callerOf p with
  | error r => exact refuse_moves p r s
  | ok x => exact moves x (isCaller_of_callerOf e).occupant

theorem withWaiter_moves (option : Byte) {k : Option Slot → Reply}
    (moves : ∀ caller, (∀ x, caller = some x → (s.port p).occ.occupant = some x) → (k caller).Moves p s) :
    (withWaiter p option s k).Moves p s := by
  unfold withWaiter
  split
  · exact withCaller_moves fun x occupied => moves _ fun y e => Option.some.inj e ▸ occupied
  · exact moves none fun y e => by cases e

theorem withTask_moves (h : Half) {k : Slot → Reply} (moves : ∀ t, (k t).Moves p s) : (withTask h s k).Moves p s := by
  unfold withTask
  split
  · exact refuse_moves p _ s
  · exact moves _

theorem withExchange_moves (id : Byte) {k : Fin 16 → Reply} (moves : ∀ y, (k y).Moves p s) : (withExchange id s k).Moves p s := by
  unfold withExchange
  split
  · exact refuse_moves p _ s
  · exact moves _

end

end Sys2Proof.Machine

/-! ## What each row does to the ports: the commands on tasks, exchanges, lines, pages and time -/

namespace Sys2Proof.Machine

section
variable (p : Port) (s : State)

/-! ### The task commands (R12 to R23, R40, R122) -/

theorem execTaskCreate_moves : Answers (PortMove p) s (execTaskCreate p s) := by
  refine command_moves fun params _ => ?_
  split
  · split
    · split
      · exact refuse_moves p _ s
      · exact done_moves (.updTask s _ _) _ (by simp [halfBytes])
    · exact refuse_moves p _ s
  · exact refuse_moves p _ s

theorem execTaskStart_moves : Answers (PortMove p) s (execTaskStart p s) := by
  refine command_moves fun params _ => ?_
  split
  · refine withTask_moves _ fun t => ?_
    split
    · exact done_moves (readyTail_frame t s).ports _
    · exact refuse_moves p _ s
  · exact refuse_moves p _ s

theorem execTaskDelete_moves : Answers (PortMove p) s (execTaskDelete p s) := by
  refine command_moves fun params _ => ?_
  split
  · exact withTask_moves _ fun t => done_moves (deleteTask_ports t s) _
  · exact refuse_moves p _ s

theorem execTaskExit_moves : Answers (PortMove p) s (execTaskExit p s) := by
  refine command_moves fun params _ => ?_
  split
  · exact withCaller_moves fun x occupied => done_moves ((doom_ports occupied).redecide p false) _
  · exact refuse_moves p _ s

theorem execTaskHold_moves : Answers (PortMove p) s (execTaskHold p s) := by
  refine command_moves fun params _ => ?_
  split
  · exact withTask_moves _ fun t => reply_moves (holdTask_ports t s) (by rw [holdTask_bytes]; decide)
  · exact refuse_moves p _ s

theorem execTaskRelease_moves : Answers (PortMove p) s (execTaskRelease p s) := by
  refine command_moves fun params _ => ?_
  split
  · exact withTask_moves _ fun t => reply_moves (releaseTask_ports t s) (by rw [releaseTask_bytes]; decide)
  · exact refuse_moves p _ s

theorem execTaskSetpri_moves : Answers (PortMove p) s (execTaskSetpri p s) := by
  refine command_moves fun params _ => ?_
  split
  · split
    · exact refuse_moves p _ s
    · exact withTask_moves _ fun t => done_moves (setPriority_ports t _ s) _
  · exact refuse_moves p _ s

theorem execTaskSetaff_moves : Answers (PortMove p) s (execTaskSetaff p s) := by
  refine command_moves fun params _ => ?_
  split
  · split
    · exact refuse_moves p _ s
    · exact withTask_moves _ fun t => reply_moves (setAffinity_ports t _ s) (by rw [setAffinity_bytes]; decide)
  · exact refuse_moves p _ s

theorem execTaskSetctx_moves : Answers (PortMove p) s (execTaskSetctx p s) := by
  refine command_moves fun params _ => ?_
  split
  · refine withTask_moves _ fun t => ?_
    split
    · exact done_moves (.updTask s t _) _
    · exact refuse_moves p _ s
  · exact refuse_moves p _ s

theorem execTaskQuery_moves : Answers (PortMove p) s (execTaskQuery p s) := by
  refine command_moves fun params _ => ?_
  split
  · exact withTask_moves _ fun t => done_moves (.refl s) _ (by simp [State.taskSnapshot])
  · exact refuse_moves p _ s

theorem execTaskSelf_moves : Answers (PortMove p) s (execTaskSelf p s) := by
  refine command_moves fun params _ => ?_
  split
  · exact withCaller_moves fun x _ => done_moves (.refl s) _ (by simp [halfBytes])
  · exact refuse_moves p _ s

theorem execTaskYield_moves : Answers (PortMove p) s (execTaskYield p s) := by
  refine command_moves fun params _ => ?_
  split
  · exact withCaller_moves fun x occupied => done_moves (yieldPort_ports occupied) _
  · exact refuse_moves p _ s

theorem execTaskDelay_moves : Answers (PortMove p) s (execTaskDelay p s) := by
  refine command_moves fun params _ => ?_
  split
  · refine withCaller_moves fun x occupied => ?_
    split
    · exact refuse_moves p _ s
    · exact reply_moves (beginWait_ports occupied _ _) (Nat.zero_le _)
  · exact refuse_moves p _ s

/-! ### The exchange commands (R74 to R108) -/

theorem execXchOpen_moves : Answers (PortMove p) s (execXchOpen p s) := by
  have opened (e : ExchangeState) (cells : Nat) : (openExchange e cells s).Moves p s :=
    reply_moves (openExchange_ports e cells s) (openExchange_bytes e cells s)
  refine command_moves fun params _ => ?_
  split
  · split
    · exact refuse_moves p _ s
    · split
      · split
        · exact refuse_moves p _ s
        · exact opened _ _
      · split
        · split
          · exact refuse_moves p _ s
          · exact opened _ _
        · exact refuse_moves p _ s
  · exact refuse_moves p _ s

theorem execXchClose_moves : Answers (PortMove p) s (execXchClose p s) := by
  refine command_moves fun params _ => ?_
  split
  · exact withExchange_moves _ fun y => reply_moves (closeExchange_ports y s) (by simp [closeExchange, done])
  · exact refuse_moves p _ s

theorem execXchQuery_moves : Answers (PortMove p) s (execXchQuery p s) := by
  refine command_moves fun params _ => ?_
  split
  · exact withExchange_moves _ fun y => done_moves (.refl s) _ (exchangeSnapshot_length s y)
  · exact refuse_moves p _ s

theorem execMsgSend_moves : Answers (PortMove p) s (execMsgSend p s) := by
  refine command_moves fun params _ => ?_
  split
  · refine withWaiter_moves _ fun caller occupied => ?_
    split
    · exact refuse_moves p _ s
    · exact withExchange_moves _ fun y => reply_moves (sendMessage_ports occupied _ _ y _) (sendMessage_bytes ..)
  · exact refuse_moves p _ s

theorem execMsgRecv_moves : Answers (PortMove p) s (execMsgRecv p s) := by
  refine command_moves fun params _ => ?_
  split
  · refine withWaiter_moves _ fun caller occupied => ?_
    split
    · exact refuse_moves p _ s
    · exact withExchange_moves _ fun y => reply_moves (receiveMessage_ports occupied _ _ _ _ y) (receiveMessage_bytes ..)
  · exact refuse_moves p _ s

theorem execCntAcquire_moves : Answers (PortMove p) s (execCntAcquire p s) := by
  refine command_moves fun params _ => ?_
  split
  · refine withWaiter_moves _ fun caller occupied => ?_
    split
    · exact refuse_moves p _ s
    · exact withExchange_moves _ fun y => reply_moves (acquireUnit_ports occupied _ _ y) (acquireUnit_bytes ..)
  · exact refuse_moves p _ s

theorem execCntRelease_moves : Answers (PortMove p) s (execCntRelease p s) := by
  refine command_moves fun params _ => ?_
  split
  · exact withExchange_moves _ fun y => reply_moves (releaseUnit_ports y s) (releaseUnit_bytes y s)
  · exact refuse_moves p _ s

/-! ### The event lines (R136 to R140) -/

theorem execEvtConfig_moves : Answers (PortMove p) s (execEvtConfig p s) := by
  refine command_moves fun params _ => ?_
  split
  · split
    · exact done_moves (.updLine s _ _) _ (by simp)
    · exact refuse_moves p _ s
  · exact refuse_moves p _ s

theorem execEvtWait_moves : Answers (PortMove p) s (execEvtWait p s) := by
  refine command_moves fun params _ => ?_
  split
  · refine withWaiter_moves _ fun caller occupied => ?_
    split
    · exact refuse_moves p _ s
    · split
      · exact refuse_moves p _ s
      · split
        · exact done_moves (.updLine s _ _) _ (by simp)
        · exact reply_moves (waitOr_ports occupied _ _ _) (by rw [waitOr_bytes]; decide)
  · exact refuse_moves p _ s

theorem execEvtQuery_moves : Answers (PortMove p) s (execEvtQuery p s) := by
  refine command_moves fun params _ => ?_
  split
  · split
    · exact refuse_moves p _ s
    · next l _ =>
      have cleared : PortsFramed s (s.updLine l fun r => { r with saturated := false }) := .updLine s l _
      refine done_moves ?_ _ (by simp [State.lineSnapshot])
      split
      · exact cleared
      · exact cleared.trans (.draw _ _)
  · exact refuse_moves p _ s

/-! ### The page commands (R146 to R157) and time (R113, R114) -/

theorem allocate_bytes (x : Slot) (n : Nat) (option : Byte) (d : Option TickCount) : (allocate p x n option d s).bytes.length ≤ 8 := by
  unfold allocate
  split
  · simp [done]
  · split <;> exact Nat.zero_le _

theorem execPageAlloc_moves : Answers (PortMove p) s (execPageAlloc p s) := by
  refine command_moves fun params _ => ?_
  split
  · refine withCaller_moves fun x occupied => ?_
    split
    · exact refuse_moves p _ s
    · exact reply_moves (allocate_ports occupied _ _ _) (allocate_bytes ..)
  · exact refuse_moves p _ s

theorem execPageFree_moves : Answers (PortMove p) s (execPageFree p s) := by
  refine command_moves fun params _ => ?_
  split
  · refine withCaller_moves fun x _ => ?_
    split
    · exact refuse_moves p _ s
    · split
      · exact refuse_moves p _ s
      · exact done_moves (removeAndServe_ports _ s) _ (by simp)
  · exact refuse_moves p _ s

theorem execPageGive_moves : Answers (PortMove p) s (execPageGive p s) := by
  refine command_moves fun params _ => ?_
  split
  · refine withCaller_moves fun x _ => ?_
    split
    · exact refuse_moves p _ s
    · refine withTask_moves _ fun t => ?_
      split
      · exact refuse_moves p _ s
      · exact done_moves (.updPool s _) _
  · exact refuse_moves p _ s

theorem execPageQuery_moves : Answers (PortMove p) s (execPageQuery p s) := by
  refine command_moves fun params _ => ?_
  split
  · split
    · exact refuse_moves p _ s
    · exact done_moves (.refl s) _ (pageSnapshot_length s _)
  · exact refuse_moves p _ s

theorem execPageReclaim_moves : Answers (PortMove p) s (execPageReclaim p s) := by
  refine command_moves fun params _ => ?_
  split
  · split
    · exact refuse_moves p _ s
    · split
      · exact refuse_moves p _ s
      · exact done_moves (removeAndServe_ports _ s) _ (by simp [halfBytes])
  · exact refuse_moves p _ s

theorem execPageConfig_moves : Answers (PortMove p) s (execPageConfig p s) := by
  refine command_moves fun params _ => ?_
  split
  · split
    · exact refuse_moves p _ s
    · split
      · exact refuse_moves p _ s
      · exact done_moves (PortsFramed.updPool s _).serve _ (by simp)
  · exact refuse_moves p _ s

theorem execTimeConfig_moves : Answers (PortMove p) s (execTimeConfig p s) := by
  refine command_moves fun params _ => ?_
  split
  · simp only
    split
    · exact refuse_moves p _ s
    · exact done_moves (.setTime s _) _ (by simp [halfBytes])
  · exact refuse_moves p _ s

theorem execTimeRead_moves : Answers (PortMove p) s (execTimeRead p s) := by
  refine command_moves fun params _ => ?_
  split
  · exact done_moves (.refl s) _ (by simp [tickBytes])
  · exact refuse_moves p _ s

end

end Sys2Proof.Machine

/-! ## What each row does to the ports: the ports, the window and the inputs; and the three statements over all rows -/

namespace Sys2Proof.Machine

section
variable {s u : State} {p : Port} {x : Slot}

/-! ### Accept (R62 to R65) -/

/-- An applied accept settles a port that is OFFERED, and therefore ENABLED. -/
theorem accepted_moves (offered : (s.port p).occ.offer ≠ none) (y : Option Slot) : PortMove p s (s.accepted p y) where
  pending := by
    cases y with
    | none => simp [State.accepted, settlePort, State.occupied]
    | some t => simp [State.accepted, settlePort, State.occupied, resumeTask]
  lawful q h := by
    rw [State.accepted_port]
    split
    · next same =>
      subst same
      have enabled (d : (s.port p).lifecycle = .disabled) : False := offered (h.quietWhenDisabled d).2.1
      exact ⟨h.bounded, fun d => (enabled d).elim, fun asserted => (enabled (h.quietUnderReset asserted).1).elim,
        fun _ e => by cases e⟩
    · exact h
  peer := by
    rw [State.accepted_port, if_neg (by cases p <;> decide)]
    exact .refl _

theorem applyDisposition_ports (x : Slot) (d : Option Disposition) (s : State) : PortsFramed s (applyDisposition x d s) := by
  unfold applyDisposition
  split
  · exact (readyHead_frame x s).ports
  · exact (readyTail_frame x s).ports
  · exact .updTask s x _
  · exact .updTask s x _
  · exact (retire_objects x false s).ports
  · exact .refl s
  · exact .refl s

theorem takeAccept_moves (p : Port) (value : Byte) (s : State) : PortMove p s (takeAccept p value s) := by
  have refused (a : AcceptStatus) : PortMove p s (setAcceptStatus p a s) :=
    .updPort (f := fun r => { r with occ := { r.occ with acceptStatus := a } }) fun h =>
      ⟨h.bounded, h.quietWhenDisabled, h.quietUnderReset, h.sequenceFits⟩
  unfold takeAccept
  split
  · exact refused _
  · split
    · exact refused _
    · next o offer =>
      have applied := accepted_moves (s := s) (p := p) (by rw [offer]; simp)
      split
      · exact refused _
      · split
        · rw [acceptSwitch_eq]
          split
          · exact (applied _).trans ((applyDisposition_ports _ _ _).move p)
          · exact applied _
        · rw [acceptContinue_eq]
          exact applied _

/-! ### Port loss and PORT.ENABLE (R178 to R181) -/

/-- The records of a lost port meet the laws, whatever they were before. -/
theorem PortRecord.lost_lawful (r : PortRecord) : { r with lifecycle := .disabled, occ := r.occ.lost, unit := r.unit.lost }.Lawful :=
  ⟨⟨Nat.zero_le _, Nat.zero_le _, fun _ e => by cases e⟩, fun _ => ⟨rfl, rfl, rfl⟩, fun _ => ⟨rfl, rfl, rfl⟩,
    fun _ e => by cases e⟩

theorem shutPort_moves (p : Port) (s : State) : PortMove p s (shutPort p s) := .updPort fun _ => (s.port p).lost_lawful

theorem loseOccupant_ports (x : Slot) (d : Option Disposition) (s : State) : PortsFramed s (loseOccupant x d s) := by
  by_cases departs : d = some .wait
  · rw [departs, loseOccupant_wait]
    exact (cancelWait_frame x s).ports.trans (.updTask _ x _)
  · rw [loseOccupant_other x s departs]
    exact .updTask s x _

theorem endLoss_moves (p : Port) (on : Bool) (offer : Option Offer) (mustServe : Bool) (s : State) :
    PortMove p s (endLoss (otherPort p) on offer mustServe s) := by
  have raised : PortMove p s (if on then s.raise (otherPort p) .peerDown else s) := by
    split
    · exact .raisePeer p s (by decide)
    · exact .refl p s
  have served {u : State} (h : PortMove p s u) : PortMove p s (if mustServe then serve u else u) := by
    split
    · exact h.trans ((serve_frame u).1.ports.move p)
    · exact h
  unfold endLoss
  simp only
  refine served ?_
  split
  · split
    · exact raised.trans ((displace_frame _ _).ports.move p)
    · exact raised
  · exact raised

/-- After the lost port's own records a loss moves the other blocks alone. -/
theorem losePortWhole_moves (p : Port) (s : State) : PortMove p (shutPort p s) (losePortWhole p s) := by
  rw [losePortWhole_eq]
  split
  · exact endLoss_moves p _ _ _ _
  · next x _ =>
    split
    · exact ((freeSlot_objects x _).ports.move p).trans (endLoss_moves p _ _ _ _)
    · exact ((loseOccupant_ports x _ _).move p).trans (endLoss_moves p _ _ _ _)

theorem losePort_moves (p : Port) (s : State) : PortMove p s (losePortWhole p s) :=
  (shutPort_moves p s).trans (losePortWhole_moves p s)

/-- PRST is asserted and its port is lost: the level is set while the port may still be ENABLED, and the loss mends it. -/
theorem prstAssert_moves (p : Port) (s : State) : PortMove p s (losePortWhole p (s.updPort p fun r => { r with prst := true })) := by
  refine PortMove.trans ?_ (losePortWhole_moves p _)
  rw [shutPort, State.updPort_updPort]
  exact .updPort fun _ => PortRecord.lost_lawful { s.port p with prst := true }

theorem prstRelease_moves (p : Port) (s : State) : PortMove p s (s.updPort p fun r => { r with prst := false }) :=
  .updPort fun h => ⟨h.bounded, h.quietWhenDisabled, fun asserted => (by cases asserted), h.sequenceFits⟩

/-- A port with a submitted command is not under PRST (R180), so that it may be ENABLED. -/
theorem enablePort_moves {code : CommandCode} {params : List Byte} (submitted : s.Submitted p code params) :
    PortMove p s (enablePort p s) := by
  have enabled : PortMove p s (s.updPort p fun r => { r with lifecycle := .enabled }) := by
    refine .updPort fun h => ⟨h.bounded, fun d => (by cases d), fun asserted => ?_, h.sequenceFits⟩
    obtain ⟨-, -, no_command⟩ := h.quietUnderReset asserted
    rw [State.Submitted, no_command] at submitted
    cases submitted
  exact (enabled.trans ((redecide_frame p false _).ports.move p)).trans (.raisePeer p _ (by decide))

theorem deviceReset_ports (s : State) : PortsKept s (deviceReset s) :=
  ⟨rfl, fun q _ => by rw [deviceReset_port]; exact (s.port q).deviceReset_lawful⟩

section
variable (p : Port) (s : State)

theorem execPortEnable_moves : Answers (PortMove p) s (execPortEnable p s) := by
  refine command_moves fun params submitted => ?_
  split
  · split
    · exact refuse_moves p _ s
    · exact ⟨enablePort_moves submitted, Nat.zero_le _⟩
  · exact refuse_moves p _ s

theorem execPortDrop_moves : Answers (PortMove p) s (execPortDrop p s) := by
  refine take_answers (.refl p s) fun params _ => ?_
  split
  · split
    · exact (complete_moves (done_moves (.refl s) [])).trans (losePort_moves p _)
    · exact complete_moves (refuse_moves p _ s)
  · exact complete_moves (refuse_moves p _ s)

theorem execBadCommand_moves : Answers (PortMove p) s (execBadCommand p s) := by
  unfold execBadCommand
  split
  · exact answers_next (.refl p s)
  · split
    · exact answers_next (.refl p s)
    · exact answers_next (complete_moves (refuse_moves p _ s))

/-- PEER.DROP moves the records of the other port as that port's own loss does, then completes on its own. -/
theorem execPeerDrop_kept : Answers PortsKept s (execPeerDrop p s) := by
  refine command_answers (PortsKept.refl s) fun params _ => ?_
  split
  · split
    · exact (losePort_moves (otherPort p) s).toPortsKept.trans (complete_moves (done_moves (.refl _) [])).toPortsKept
    · exact (complete_moves (refuse_moves p _ s)).toPortsKept
  · exact (complete_moves (refuse_moves p _ s)).toPortsKept

theorem execDeviceReset_kept : Answers PortsKept s (execDeviceReset p s) := by
  refine take_answers (PortsKept.refl s) fun params _ => ?_
  split
  · split
    · exact (complete_moves (refuse_moves p _ s)).toPortsKept
    · exact deviceReset_ports s
  · exact (complete_moves (refuse_moves p _ s)).toPortsKept

/-! ### The window (R161 to R166, R171, R172) -/

theorem accessUnit_moves {f : PortUnit → PortUnit} (bounded : (s.port p).unit.Bounded → (f (s.port p).unit).Bounded) :
    Answers (PortMove p) s (access p (fun s => s.updUnit p f) s) :=
  access_answers (.refl p s) fun released => .updUnit released bounded

theorem execPrmRead_moves : Answers (PortMove p) s (execPrmRead p s) := by
  have read {f : PortUnit → PortUnit} (bounded : (s.port p).unit.Bounded → (f (s.port p).unit).Bounded)
      (intp : (f (s.port p).unit).intp = (s.port p).unit.intp) (command : (f (s.port p).unit).command = (s.port p).unit.command) :
      PortMove p s (s.updUnit p f) :=
    .updPort fun h => h.unit (bounded h.bounded) fun asserted => by
      rw [intp, command]
      exact (h.quietUnderReset asserted).2
  unfold execPrmRead
  split
  · refine answers_next (read (fun ⟨staging, results, command⟩ => ⟨staging, ?_, fun c e => ?_⟩) rfl rfl)
    · rw [List.length_tail]
      exact (Nat.sub_le _ _).trans results
    · obtain ⟨params, res, none_left⟩ := command c e
      exact ⟨params, res, by rw [none_left]; rfl⟩
  · exact answers_next (read (fun bounded => bounded) rfl rfl)

/-! ### All of them -/

/-- Every command but PEER.DROP and DEVICE.RESET moves the records of its own port alone. -/
theorem row_moves (c : CommandCode) (not_peerDrop : c ≠ .peerDrop) (not_deviceReset : c ≠ .deviceReset) :
    Answers (PortMove p) s (exec (c.row p) s) := by
  cases c with
  | taskCreate => exact execTaskCreate_moves p s
  | taskStart => exact execTaskStart_moves p s
  | taskDelete => exact execTaskDelete_moves p s
  | taskExit => exact execTaskExit_moves p s
  | taskHold => exact execTaskHold_moves p s
  | taskRelease => exact execTaskRelease_moves p s
  | taskSetpri => exact execTaskSetpri_moves p s
  | taskSetaff => exact execTaskSetaff_moves p s
  | taskSetctx => exact execTaskSetctx_moves p s
  | taskQuery => exact execTaskQuery_moves p s
  | taskSelf => exact execTaskSelf_moves p s
  | taskYield => exact execTaskYield_moves p s
  | taskDelay => exact execTaskDelay_moves p s
  | xchOpen => exact execXchOpen_moves p s
  | xchClose => exact execXchClose_moves p s
  | xchQuery => exact execXchQuery_moves p s
  | msgSend => exact execMsgSend_moves p s
  | msgRecv => exact execMsgRecv_moves p s
  | cntAcquire => exact execCntAcquire_moves p s
  | cntRelease => exact execCntRelease_moves p s
  | evtConfig => exact execEvtConfig_moves p s
  | evtWait => exact execEvtWait_moves p s
  | evtQuery => exact execEvtQuery_moves p s
  | pageAlloc => exact execPageAlloc_moves p s
  | pageFree => exact execPageFree_moves p s
  | pageGive => exact execPageGive_moves p s
  | pageQuery => exact execPageQuery_moves p s
  | pageReclaim => exact execPageReclaim_moves p s
  | pageConfig => exact execPageConfig_moves p s
  | timeConfig => exact execTimeConfig_moves p s
  | timeRead => exact execTimeRead_moves p s
  | portEnable => exact execPortEnable_moves p s
  | portDrop => exact execPortDrop_moves p s
  | peerDrop => exact absurd rfl not_peerDrop
  | deviceReset => exact absurd rfl not_deviceReset

/-- The rows of a port that take no known command: BAD_COMMAND, the accesses of the window, and the edges of PRST. -/
def IsPortEvent (p : Port) (c : Instr) : Prop :=
  c = .badCommand p ∨ c = .prmRead p ∨
    (∃ v, c = .prmWrite p v ∨ c = .intpWrite p v ∨ c = .inteWrite p v ∨ c = .accept p v ∨ c = .cmdWrite p v) ∨
    c = .prstAssert p ∨ c = .prstRelease p

theorem portEvent_moves {c : Instr} (h : IsPortEvent p c) : Answers (PortMove p) s (exec c s) := by
  obtain rfl | rfl | ⟨v, rfl | rfl | rfl | rfl | rfl⟩ | rfl | rfl := h
  · exact execBadCommand_moves p s
  · exact execPrmRead_moves p s
  · exact accessUnit_moves p s fun bounded => bounded.stage v
  · exact accessUnit_moves p s (f := fun u => { u with intp := u.intp &&& ~~~(v.setWidth 4) }) id
  · exact accessUnit_moves p s (f := fun u => { u with inte := v.setWidth 4 }) id
  · exact access_answers (.refl p s) fun _ => takeAccept_moves p v s
  · exact accessUnit_moves p s fun bounded => bounded.submit v
  · exact answers_next (prstAssert_moves p s)
  · exact answers_next (prstRelease_moves p s)

/-- Every row of the table answers a next state, with the queue as it was and each port as lawful as it was. -/
theorem exec_ports (c : Instr) (s : State) : Answers PortsKept s (exec c s) := by
  have ofRow (p : Port) (code : CommandCode) : Answers PortsKept s (exec (code.row p) s) := by
    by_cases drop : code = .peerDrop
    · rw [drop]; exact execPeerDrop_kept p s
    · by_cases reset : code = .deviceReset
      · rw [reset]; exact execDeviceReset_kept p s
      · exact (row_moves p s code drop reset).mono fun _ => PortMove.toPortsKept
  have ofEvent {p : Port} {c : Instr} (h : IsPortEvent p c) : Answers PortsKept s (exec c s) :=
    (portEvent_moves p s h).mono fun _ => PortMove.toPortsKept
  cases c with
  | taskCreate p => exact ofRow p .taskCreate
  | taskStart p => exact ofRow p .taskStart
  | taskDelete p => exact ofRow p .taskDelete
  | taskExit p => exact ofRow p .taskExit
  | taskHold p => exact ofRow p .taskHold
  | taskRelease p => exact ofRow p .taskRelease
  | taskSetpri p => exact ofRow p .taskSetpri
  | taskSetaff p => exact ofRow p .taskSetaff
  | taskSetctx p => exact ofRow p .taskSetctx
  | taskQuery p => exact ofRow p .taskQuery
  | taskSelf p => exact ofRow p .taskSelf
  | taskYield p => exact ofRow p .taskYield
  | taskDelay p => exact ofRow p .taskDelay
  | xchOpen p => exact ofRow p .xchOpen
  | xchClose p => exact ofRow p .xchClose
  | xchQuery p => exact ofRow p .xchQuery
  | msgSend p => exact ofRow p .msgSend
  | msgRecv p => exact ofRow p .msgRecv
  | cntAcquire p => exact ofRow p .cntAcquire
  | cntRelease p => exact ofRow p .cntRelease
  | evtConfig p => exact ofRow p .evtConfig
  | evtWait p => exact ofRow p .evtWait
  | evtQuery p => exact ofRow p .evtQuery
  | pageAlloc p => exact ofRow p .pageAlloc
  | pageFree p => exact ofRow p .pageFree
  | pageGive p => exact ofRow p .pageGive
  | pageQuery p => exact ofRow p .pageQuery
  | pageReclaim p => exact ofRow p .pageReclaim
  | pageConfig p => exact ofRow p .pageConfig
  | timeConfig p => exact ofRow p .timeConfig
  | timeRead p => exact ofRow p .timeRead
  | portEnable p => exact ofRow p .portEnable
  | portDrop p => exact ofRow p .portDrop
  | peerDrop p => exact ofRow p .peerDrop
  | deviceReset p => exact ofRow p .deviceReset
  | badCommand p | prmWrite p _ | prmRead p | intpWrite p _ | inteWrite p _ | accept p _ | prstAssert p | prstRelease p
  | cmdWrite p _ => exact ofEvent (p := p) (by simp [IsPortEvent])
  | writeIgnored _ _ _ => exact answers_next (.refl s)
  | rstAssert => exact answers_next ⟨rfl, (deviceReset_ports s).lawful⟩
  | rstRelease =>
    rw [exec, execRstRelease]
    split
    · exact answers_next ⟨rfl, fun q h => by cases q <;> exact h⟩
    · exact answers_next (.refl s)
  | lineEvent l e =>
    rw [exec, execLineEvent]
    split
    · exact answers_next (.refl s)
    · exact answers_next (recogniseEdge_ports l e s).kept
  | lineSample levels =>
    rw [exec, execLineSample]
    split
    · exact answers_next (.refl s)
    · exact answers_next (sampleLines_ports levels s).kept
  | tick =>
    rw [exec, execTick]
    split
    · exact answers_next (.refl s)
    · exact answers_next (tickWhole_ports s).kept
  | expiry t => exact answers_next (expire_ports t s).kept
  | sliceExpiry p =>
    rw [exec, execSliceExpiry]
    split
    · exact answers_next (countQuantum_ports p s).kept
    · exact answers_next (.refl s)

end

/-- Settles O56: every row keeps the laws of each port by itself, and so does the idle step. -/
theorem everyStepKeepsThePortLaws : Obligations.EveryStepKeepsThePortLaws := by
  intro s u e lawful
  unfold step at e
  cases pending : s.pending with
  | nil =>
    rw [pending] at e
    cases e
    exact fun p => (clkPeriod_ports s).kept.lawful p (lawful p)
  | cons c rest =>
    rw [pending] at e
    obtain ⟨u', answer, kept⟩ := exec_ports c { s with pending := rest }
    cases answer.symm.trans e
    exact fun p => kept.lawful p (lawful p)

/-- Settles O2: the rows that answer a next state are all of them. -/
theorem everyCommandAnswersANextState : Obligations.EveryCommandAnswersANextState := by
  intro c s
  obtain ⟨u, answer, kept⟩ := exec_ports c s
  exact ⟨u, answer, kept.pending⟩

/-- Settles O54: the rows of one port move its own records, and of the other's what the Dispatcher and a raised cause move. -/
theorem theOtherPortKeepsItsRecords : Obligations.TheOtherPortKeepsItsRecords := by
  intro p c s u row e
  obtain ⟨u', answer, move⟩ : Answers (PortMove p) s (exec c s) := by
    obtain ⟨k, not_drop, not_reset, rfl⟩ | event := row
    · exact row_moves p s k not_drop not_reset
    · exact portEvent_moves p s event
  cases answer.symm.trans e
  obtain ⟨lifecycle, prst, occupant, acceptStatus, unit, pends, done⟩ := move.peer
  exact ⟨lifecycle, prst, occupant, acceptStatus, unit, pends, done⟩

end

end Sys2Proof.Machine

/-! ## The window of a port (R161 to R167, R171 to R173) -/

namespace Sys2Proof.Machine

section
variable {s : State} {p : Port} {v : Byte} {l : BitVec 5} {o : Offer}

/-! ### The open and the closed window (R161, R183) -/

theorem windowOpen_iff : s.windowOpen p = true ↔ (s.port p).prst = false ∧ s.rst = false := by
  simp [State.windowOpen]

theorem windowOpen_of_reset (reset : (s.port p).prst = true ∨ s.rst = true) : s.windowOpen p = false := by
  rw [← Bool.not_eq_true, windowOpen_iff]
  rintro ⟨released, running⟩
  rcases reset with asserted | asserted
  · rw [released] at asserted; cases asserted
  · rw [running] at asserted; cases asserted

theorem access_open (opened : s.windowOpen p = true) (f : State → State) : access p f s = .next (f s) := if_pos opened

theorem access_closed (closed : s.windowOpen p = false) (f : State → State) : access p f s = .next s :=
  if_neg (by rw [closed]; decide)

theorem execPrmRead_open (opened : s.windowOpen p = true) :
    execPrmRead p s = .next (s.updUnit p fun u => { u with dataOut := u.results.headD 0, results := u.results.tail }) :=
  if_pos opened

theorem execPrmRead_closed (closed : s.windowOpen p = false) :
    execPrmRead p s = .next (s.updUnit p fun u => { u with dataOut := 0 }) :=
  if_neg (by rw [closed]; decide)

/-- An update of the Port Unit is known by what it makes of the unit. -/
theorem State.updUnit_congr {f g : PortUnit → PortUnit} (h : f (s.port p).unit = g (s.port p).unit) :
    s.updUnit p f = s.updUnit p g :=
  State.updPort_congr (by rw [h])

theorem exec_prmWrite (p : Port) (v : Byte) (s : State) : exec (.prmWrite p v) s = access p (fun s => s.updUnit p (·.stage v)) s := rfl

theorem exec_cmdWrite (p : Port) (v : Byte) (s : State) : exec (.cmdWrite p v) s = access p (fun s => s.updUnit p (·.submit v)) s := rfl

theorem exec_intpWrite (p : Port) (v : Byte) (s : State) :
    exec (.intpWrite p v) s = access p (fun s => s.updUnit p fun u => { u with intp := u.intp &&& ~~~(v.setWidth 4) }) s := rfl

theorem exec_inteWrite (p : Port) (v : Byte) (s : State) :
    exec (.inteWrite p v) s = access p (fun s => s.updUnit p fun u => { u with inte := v.setWidth 4 }) s := rfl

/-- Settles O4. -/
theorem closedWindowTakesNoAccess : Obligations.ClosedWindowTakesNoAccess := by
  refine ⟨fun p s reset => ?_, fun _ _ _ _ => rfl⟩
  have closed := windowOpen_of_reset reset
  refine ⟨fun v => ⟨?_, ?_, ?_, ?_, access_closed closed (takeAccept p v)⟩, execPrmRead_closed closed, fun l => if_pos closed⟩
  · rw [exec_cmdWrite, access_closed closed]
  · rw [exec_prmWrite, access_closed closed]
  · rw [exec_intpWrite, access_closed closed]
  · rw [exec_inteWrite, access_closed closed]

/-! ### Staging, submission and the result list (R163 to R167) -/

theorem PortUnit.stage_room {u : PortUnit} (room : u.staging.length < 8) : u.stage v = { u with staging := u.staging ++ [v] } :=
  if_pos room

theorem PortUnit.stage_full {u : PortUnit} (full : 8 ≤ u.staging.length) : u.stage v = { u with overrun := true } :=
  if_neg (Nat.not_lt.2 full)

theorem PortUnit.submit_ready {u : PortUnit} (ready : u.command = none) :
    u.submit v =
      { u with
        command := some ⟨v, u.staging⟩, staging := [], results := [], res := 0, overrun := false,
        intp := u.intp &&& 0b1101 } := by
  rw [PortUnit.submit, ready]
  rfl

theorem PortUnit.submit_busy {u : PortUnit} (busy : u.command ≠ none) : u.submit v = { u with overrun := true } := by
  obtain ⟨sub, submitted⟩ := Option.ne_none_iff_exists'.1 busy
  rw [PortUnit.submit, submitted]

/-- Settles O5. -/
theorem stagingSubmissionAndResultList : Obligations.StagingSubmissionAndResultList := by
  intro p s v released running
  have opened := windowOpen_iff.2 ⟨released, running⟩
  have written {c : Instr} {f g : PortUnit → PortUnit} (e : exec c s = .next (s.updUnit p f))
      (h : f (s.port p).unit = g (s.port p).unit) : exec c s = .next (s.updUnit p g) := by rw [e, State.updUnit_congr h]
  have prmWrite := (exec_prmWrite p v s).trans (access_open opened _)
  have cmdWrite := (exec_cmdWrite p v s).trans (access_open opened _)
  have prmRead : exec (.prmRead p) s = _ := execPrmRead_open opened
  exact ⟨fun room => written prmWrite (PortUnit.stage_room room), fun full => written prmWrite (PortUnit.stage_full full),
    fun ready => written cmdWrite (PortUnit.submit_ready ready), fun busy => written cmdWrite (PortUnit.submit_busy busy),
    fun b rest results => written prmRead (by rw [results]; rfl), fun none_left => written prmRead (by simp [none_left])⟩

/-! ### The interrupt sets (R171, R172) -/

theorem interruptDriven_iff {r : PortRecord} :
    r.interruptDriven = true ↔ ∃ i, i < 4 ∧ r.unit.intp.getLsbD i = true ∧ r.unit.inte.getLsbD i = true := by
  have zero (i : Nat) : (0 : BitVec 4).getLsbD i = false := BitVec.getLsbD_zero
  rw [PortRecord.interruptDriven, bne_iff_ne]
  constructor
  · intro driven
    by_contra quiet
    refine driven (BitVec.eq_of_getLsbD_eq fun i lt => ?_)
    rw [BitVec.getLsbD_and, zero, Bool.and_eq_false_imp, ← Bool.not_eq_true]
    exact fun pending enabled => quiet ⟨i, lt, pending, enabled⟩
  · rintro ⟨i, -, pending, enabled⟩ quiet
    have bit : (r.unit.intp &&& r.unit.inte).getLsbD i = true := by rw [BitVec.getLsbD_and, pending, enabled]; rfl
    rw [quiet, zero] at bit
    cases bit

/-- Settles O6. -/
theorem interruptSets : Obligations.InterruptSets := by
  refine fun p s v => ⟨fun released running => ?_, interruptDriven_iff⟩
  have opened := windowOpen_iff.2 ⟨released, running⟩
  exact ⟨(exec_intpWrite p v s).trans (access_open opened _), (exec_inteWrite p v s).trans (access_open opened _)⟩

/-! ### STAT (R162) -/

/-- STAT from its five conditions. -/
def statByte (busy overrun enabled offered peer : Bool) : Byte :=
  (if busy then 0x01 else 0) ||| (if overrun then 0x02 else 0) ||| (if enabled then 0x04 else 0)
    ||| (if offered then 0x08 else 0) ||| (if peer then 0x10 else 0)

theorem stat_eq (s : State) (p : Port) :
    s.stat p = statByte (s.port p).busy (s.port p).unit.overrun (s.port p).isEnabled (s.port p).offered
      (s.port (otherPort p)).isEnabled := rfl

/-- Each condition has a bit of its own, and no other bit is set. -/
theorem statByte_bits (busy overrun enabled offered peer : Bool) :
    let stat := statByte busy overrun enabled offered peer
    stat.getLsbD 0 = busy ∧ stat.getLsbD 1 = overrun ∧ stat.getLsbD 2 = enabled ∧ stat.getLsbD 3 = offered ∧
      stat.getLsbD 4 = peer ∧ stat.toNat < 2 ^ 5 := by
  revert busy overrun enabled offered peer
  decide

theorem PortRecord.isEnabled_iff {r : PortRecord} : r.isEnabled = true ↔ r.lifecycle = .enabled := by
  simp [PortRecord.isEnabled]

/-- Settles O7. -/
theorem statShowsTheFiveConditions : Obligations.StatShowsTheFiveConditions := by
  intro p s released running
  have opened : ¬s.windowOpen p = false := by rw [windowOpen_iff.2 ⟨released, running⟩]; decide
  have read : s.readLocation p 0x00 = s.stat p := if_neg opened
  rw [read, stat_eq]
  obtain ⟨busy, overrun, enabled, offered, peer, small⟩ := statByte_bits (s.port p).busy (s.port p).unit.overrun
    (s.port p).isEnabled (s.port p).offered (s.port (otherPort p)).isEnabled
  refine ⟨?_, ?_, ?_, ?_, ?_, fun i high => ?_⟩
  · rw [busy, PortRecord.busy, Option.isSome_iff_ne_none]
  · rw [overrun]
  · rw [enabled, PortRecord.isEnabled_iff]
  · rw [offered, PortRecord.offered, Option.isSome_iff_ne_none]
  · rw [peer, PortRecord.isEnabled_iff]
  · exact Nat.testBit_lt_two_pow (small.trans_le (Nat.pow_le_pow_right (by decide) high))

/-! ### The offer window (R161, R173) -/

/-- The locations that neither the Port Unit nor the occupancy record's own fields take show the offer. -/
theorem readLocation_offer (opened : s.windowOpen p = true) (free : l.toNat = 0x07 ∨ 0x09 ≤ l.toNat) (not_astat : l.toNat ≠ 0x18) :
    s.readLocation p l = (s.port p).occ.offer.elim 0 fun o => s.offerByte o l.toNat := by
  simp only [State.readLocation, if_neg (show ¬s.windowOpen p = false by rw [opened]; decide)]
  split
  case h_10 => rfl
  all_goals omega

/-- With an offer posted the locations of the offer window show it (R173). -/
theorem readLocation_posted (opened : s.windowOpen p = true) (offer : (s.port p).occ.offer = some o) (l : BitVec 5)
    (listed : 0x09 ≤ l.toNat ∧ l.toNat ≤ 0x17 := by decide) : s.readLocation p l = s.offerByte o l.toNat := by
  rw [readLocation_offer opened (.inr listed.1) (by omega), offer]
  rfl

theorem offerByte_unlisted {n : Nat} (unlisted : n = 0x07 ∨ 0x19 ≤ n) : s.offerByte o n = 0 := by
  unfold State.offerByte
  split
  case h_16 => rfl
  all_goals omega

/-- The three bytes of a context word, low byte first. -/
theorem contextBytes (c : Context) : (contextByte 2 c ++ contextByte 1 c ++ contextByte 0 c : Context) = c := by
  refine BitVec.eq_of_getLsbD_eq fun i lt => ?_
  simp only [BitVec.getLsbD_append, contextByte, BitVec.getLsbD_setWidth, BitVec.getLsbD_ushiftRight]
  split
  · next low => simp [low]
  · split
    · next middle => simp [middle, show 8 + (i - 8) = i by omega]
    · next high => simp [show i - 8 - 8 < 8 by omega, show 16 + (i - 8 - 8) = i by omega]

theorem contextBytes_getD (c : Option Context) :
    (c.elim 0 (contextByte 2) ++ c.elim 0 (contextByte 1) ++ c.elim 0 (contextByte 0) : Context) = c.getD 0 := by
  cases c with
  | none => rfl
  | some c => exact contextBytes c

theorem handleBytes_elim (s : State) (y : Option Slot) :
    (y.elim 0 (fun t => hiByte (s.handle t)) ++ y.elim 0 (fun t => loByte (s.handle t)) : Half) = y.elim 0 s.handle := by
  cases y with
  | none => exact (by decide : (0#8 ++ 0#8 : Half) = 0#16)
  | some t => exact half_bytes (s.handle t)

/-- A delivery without a message and without a page has no payload (R8). -/
theorem payloadByte_none {d : Option Delivery} (no_message : ∀ m, d ≠ some (.ok (.message m)))
    (no_page : ∀ k, d ≠ some (.ok (.page k))) (i : Nat) : payloadByte d i = 0 := by
  unfold payloadByte
  split
  · next m => exact absurd rfl (no_message m)
  · next k => exact absurd rfl (no_page k)
  all_goals rfl

/-- Settles O8: the registers are read as they stand, and every other location is read of the offer. -/
theorem offerWindowShowsTheOffer : Obligations.OfferWindowShowsTheOffer := by
  intro p s released running r
  have opened := windowOpen_iff.2 ⟨released, running⟩
  have not_closed : ¬s.windowOpen p = false := by rw [opened]; decide
  have head : r 0x02 = (s.port p).unit.results.headD 0 := if_neg not_closed
  have window (l : BitVec 5) (free : l.toNat = 0x07 ∨ 0x09 ≤ l.toNat) (not_astat : l.toNat ≠ 0x18) :
      r l = (s.port p).occ.offer.elim 0 fun o => s.offerByte o l.toNat := readLocation_offer opened free not_astat
  refine ⟨if_neg not_closed, fun none_left => ?_, fun b rest results => ?_, if_neg not_closed, if_neg not_closed, if_neg not_closed,
    if_neg not_closed, fun l unlisted => ?_, if_neg not_closed, if_neg not_closed, fun no_offer l low high => ?_,
    fun o offer => ?_⟩
  · rw [head, none_left]; rfl
  · rw [head, results]; rfl
  · have unlisted : l.toNat = 0x07 ∨ 0x19 ≤ l.toNat := unlisted.imp (fun e => by rw [e]; rfl) id
    rw [window l (by omega) (by omega)]
    cases (s.port p).occ.offer with
    | none => rfl
    | some o => exact offerByte_unlisted unlisted
  · rw [window l (.inr low) (by omega), no_offer]
    rfl
  have shows (l : BitVec 5) (listed : 0x09 ≤ l.toNat ∧ l.toNat ≤ 0x17 := by decide) : r l = s.offerByte o l.toNat :=
    readLocation_posted opened offer l listed
  have payload0 : r 0x13 = payloadByte o.delivery 0 := shows 0x13
  have payload1 : r 0x14 = payloadByte o.delivery 1 := shows 0x14
  have payload2 : r 0x15 = payloadByte o.delivery 2 := shows 0x15
  have payload3 : r 0x16 = payloadByte o.delivery 3 := shows 0x16
  have payload4 : r 0x17 = payloadByte o.delivery 4 := shows 0x17
  have delivery : r 0x12 = o.delivery.elim 0 Delivery.code := shows 0x12
  refine ⟨?_, ?_, ?_, ?_, fun d => ?_, fun y d => ?_, fun d => ?_, fun d => ?_, fun d => ?_, fun m d => ?_, fun k d => ?_,
    fun no_message no_page => ?_⟩
  · rw [shows 0x09]
    show o.kind.code = _
    cases o.kind <;> rfl
  · rw [shows 0x0A, shows 0x0B]
    exact handleBytes_elim s o.incoming
  · rw [shows 0x0C, shows 0x0D, shows 0x0E]
    exact contextBytes_getD o.incomingContext
  · rw [shows 0x0F, shows 0x10, shows 0x11]
    exact contextBytes_getD o.outgoingContext
  · rw [delivery, d]; rfl
  · rw [delivery, d]; rfl
  · rw [delivery, d]; rfl
  · rw [delivery, d]; rfl
  · rw [delivery, d]; rfl
  · rw [payload0, payload1, payload2, payload3, payload4, d]
    exact ⟨rfl, half_bytes m.value, half_bytes m.sender⟩
  · rw [payload0, payload1, payload2, payload3, payload4, d]
    exact ⟨rfl, rfl, rfl, rfl, rfl⟩
  · rw [payload0, payload1, payload2, payload3, payload4]
    have none (i : Nat) := payloadByte_none no_message no_page i
    exact ⟨none 0, none 1, none 2, none 3, none 4⟩

end

end Sys2Proof.Machine

/-! ## The queue, the command codes and the check order (R165, R168, R169) -/

namespace Sys2Proof.Machine

section
variable {s : State} {p : Port} {c : CommandCode} {params : List Byte} {code option : Byte}

/-- Settles O1. -/
theorem stepTakesTheFrontCommand : Obligations.StepTakesTheFrontCommand := fun _ _ _ => rfl

/-! ### The command codes (R168) -/

theorem CommandCode.mem_all (c : CommandCode) : c ∈ CommandCode.all := by
  cases c <;> decide

/-- A command's code is found again as that command, since no two share a code. -/
theorem CommandCode.find_code (c : CommandCode) : CommandCode.all.find? (fun d => d.code == c.code) = some c := by
  obtain ⟨d, found⟩ : ∃ d, CommandCode.all.find? (fun d => d.code == c.code) = some d :=
    Option.isSome_iff_exists.1 (List.find?_isSome.2 ⟨c, c.mem_all, beq_self_eq_true c.code⟩)
  have same : d.code = c.code := by simpa using List.find?_some found
  rw [found, CommandCode.code_injective same]

theorem find_unknown (unknown : ∀ c : CommandCode, c.code ≠ code) : CommandCode.all.find? (fun c => c.code == code) = none :=
  List.find?_eq_none.2 fun c _ => by simpa using unknown c

theorem knownCode_unknown (unknown : ∀ c : CommandCode, c.code ≠ code) : knownCode code = false :=
  List.any_eq_false.2 fun c _ => by simpa using unknown c

/-- Settles O9. -/
theorem commandCodeTable : Obligations.CommandCodeTable := by
  refine ⟨by decide, fun c p => ⟨c.mem_all, ?_⟩, fun code p unknown => ?_⟩
  · rw [takingRow, c.find_code]
  · rw [takingRow, find_unknown unknown]

/-! ### Unknown codes and wrong counts (R169, steps 1 and 2) -/

theorem exec_badCommand (submitted : (s.port p).unit.command = some ⟨code, params⟩) (unknown : ∀ c : CommandCode, c.code ≠ code) :
    exec (.badCommand p) s = .next (s.completed p 0x10 []) := by
  rw [exec, execBadCommand, submitted]
  simp only [knownCode_unknown unknown, complete_refuse]
  rfl

/-- PORT.DROP and DEVICE.RESET, which may leave no completion, complete when they are refused. -/
theorem take_refuses (h : s.Submitted p c params) {k : List Byte → State → State} {r : Result}
    (e : k params s = complete p (refuse r s)) : take p c k s = .next (s.completed p r.code []) := by
  rw [take_of_submitted h, e, complete_refuse]

/-- Each command checks the number of its bytes before anything else. -/
theorem exec_row_paramCount (h : s.Submitted p c params) (wrong : params.length ≠ c.paramCount) :
    exec (c.row p) s = .next (s.completed p 0x11 []) := by
  cases c
  case portDrop | deviceReset =>
    rw [CommandCode.row, exec]
    refine take_refuses (r := .paramCount) h ?_
    split
    · exact absurd rfl wrong
    · rfl
  all_goals
    rw [CommandCode.row, exec]
    refine command_refuses (r := .paramCount) h ?_
    split
    · exact absurd rfl wrong
    · rfl

/-- Settles O10. -/
theorem unknownCodeAndWrongCountAreRefused : Obligations.UnknownCodeAndWrongCountAreRefused :=
  ⟨fun _ _ _ _ => exec_badCommand, fun _ _ _ _ => exec_row_paramCount⟩

/-! ### The caller checks (R169, step 3) -/

theorem withCaller_idle (idle : (s.port p).occ.occupant = none) (k : Slot → Reply) : withCaller p s k = refuse .noCaller s := by
  simp only [withCaller, State.callerOf, idle]

theorem withCaller_gone {x : Slot} (occupied : (s.port p).occ.occupant = some x) (doomed : (s.task x).doomed = true)
    (k : Slot → Reply) : withCaller p s k = refuse .callerGone s := by
  simp only [withCaller, State.callerOf, occupied, doomed, if_true]

theorem withCaller_departing {x : Slot} (occupied : (s.port p).occ.occupant = some x) (not_doomed : (s.task x).doomed = false)
    (departs : (s.port p).occ.disposition = some .wait ∨ (s.port p).occ.disposition = some .held) (k : Slot → Reply) :
    withCaller p s k = refuse .departing s := by
  simp only [withCaller, State.callerOf, occupied, not_doomed, if_pos departs, Bool.false_eq_true, if_false]

theorem withWaiter_withCaller (waits : mayWait option = true) (k : Option Slot → Reply) :
    withWaiter p option s k = withCaller p s fun x => k (some x) := if_pos waits

theorem command_withCaller (h : s.Submitted p c params) {body : List Byte → State → Reply} {k : Slot → Reply}
    (e : body params s = withCaller p s k) : command p c body s = .next (complete p (withCaller p s k)) := by
  rw [command_eq_complete h, e]

/-- Every caller-required command with its count of bytes is a command of its port's caller. -/
theorem exec_row_withCaller (h : s.Submitted p c params) (len : params.length = c.paramCount)
    (required : callerRequired c params = true) : ∃ k, exec (c.row p) s = .next (complete p (withCaller p s k)) := by
  cases c
  all_goals rw [CommandCode.row, exec]
  case taskExit | taskSelf | taskYield =>
    obtain rfl := List.length_eq_zero_iff.1 len
    exact ⟨_, command_withCaller h rfl⟩
  case taskDelay =>
    obtain ⟨lo, hi, rfl⟩ := List.length_eq_two.1 len
    exact ⟨_, command_withCaller h rfl⟩
  case pageFree =>
    obtain ⟨page, rfl⟩ := List.length_eq_one_iff.1 len
    exact ⟨_, command_withCaller h rfl⟩
  case pageGive =>
    obtain ⟨page, lo, hi, rfl⟩ := List.length_eq_three.1 len
    exact ⟨_, command_withCaller h rfl⟩
  case pageAlloc =>
    match params, len with
    | [_, _, _, _], _ => exact ⟨_, command_withCaller h rfl⟩
  case msgSend =>
    match params, len with
    | [_, _, _, _, _, _, _], _ => exact ⟨_, command_withCaller h (withWaiter_withCaller required _)⟩
  case msgRecv =>
    match params, len with
    | [_, _, _, _, _, _], _ => exact ⟨_, command_withCaller h (withWaiter_withCaller required _)⟩
  case cntAcquire | evtWait =>
    match params, len with
    | [_, _, _, _], _ => exact ⟨_, command_withCaller h (withWaiter_withCaller required _)⟩
  all_goals cases required

/-! ### Wait options out of range (R84) -/

/-- A command that may be asked and answers the same whoever calls. -/
theorem withWaiter_const (ask : s.MayAsk p option) {k : Option Slot → Reply} {r : Reply} (same : ∀ caller, k caller = r) :
    withWaiter p option s k = r := by
  obtain ⟨caller, run⟩ := withWaiter_runs ask k
  rw [run, same]

theorem waitInRange_outside {lo hi : Byte} (range : ¬OptionInRange option (hi ++ lo)) : waitInRange option (half lo hi) = false := by
  rw [← Bool.not_eq_true, waitInRange_iff]
  exact range

section
variable {lo hi : Byte} (ask : s.MayAsk p option) (range : ¬OptionInRange option (hi ++ lo))
include ask range

theorem exec_msgSend_badOption {id tag v₀ v₁ : Byte} (h : s.Submitted p .msgSend [id, tag, v₀, v₁, option, lo, hi]) :
    exec (.msgSend p) s = .next (s.completed p 0x12 []) := by
  rw [exec]
  refine command_refuses (r := .badParam) h ?_
  exact withWaiter_const ask fun _ => if_pos (waitInRange_outside range)

theorem exec_msgRecv_badOption {id low high : Byte} (h : s.Submitted p .msgRecv [id, low, high, option, lo, hi]) :
    exec (.msgRecv p) s = .next (s.completed p 0x12 []) := by
  rw [exec]
  refine command_refuses (r := .badParam) h ?_
  exact withWaiter_const ask fun _ => if_pos (.inl (waitInRange_outside range))

theorem exec_cntAcquire_badOption {id : Byte} (h : s.Submitted p .cntAcquire [id, option, lo, hi]) :
    exec (.cntAcquire p) s = .next (s.completed p 0x12 []) := by
  rw [exec]
  refine command_refuses (r := .badParam) h ?_
  exact withWaiter_const ask fun _ => if_pos (waitInRange_outside range)

theorem exec_evtWait_badOption {line : Byte} (h : s.Submitted p .evtWait [line, option, lo, hi]) :
    exec (.evtWait p) s = .next (s.completed p 0x12 []) := by
  rw [exec]
  refine command_refuses (r := .badParam) h ?_
  refine withWaiter_const ask fun _ => ?_
  cases lineOf line with
  | none => rfl
  | some l => exact if_pos (waitInRange_outside range)

end

/-- Settles O11. -/
theorem callerAndWaitOptionChecks : Obligations.CallerAndWaitOptionChecks := by
  refine ⟨fun p s c params h len required => ?_, fun p s id a b d e option lo hi ask range =>
    ⟨exec_msgSend_badOption ask range, exec_msgRecv_badOption ask range, exec_cntAcquire_badOption ask range,
      exec_evtWait_badOption ask range⟩⟩
  obtain ⟨k, run⟩ := exec_row_withCaller h len required
  refine ⟨fun idle => ?_, fun x occupied => ⟨fun doomed => ?_, fun not_doomed departs => ?_⟩⟩
  · rw [run, withCaller_idle idle, complete_refuse]; rfl
  · rw [run, withCaller_gone occupied doomed, complete_refuse]; rfl
  · rw [run, withCaller_departing occupied not_doomed departs, complete_refuse]; rfl

end

end Sys2Proof.Machine

/-! ## The loss of a port, its commands and inputs, and device reset (R177 to R183) -/

namespace Sys2Proof.Machine

section
variable {s : State} {p : Port} {x : Slot}

/-! ### The end of a loss (R181) -/

/-- The removed incoming of a SWITCH offer enters the head of its level; with IDLE, a CONTINUE offer or none there is none. -/
theorem displace_removedIncoming (offer : Option Offer) (u : State) :
    displace (removedIncoming offer) u =
      match offer with
      | some o => (match o.kind, o.incoming with | .switchTask, some y => readyHead y u | _, _ => u)
      | none => u := by
  cases offer with
  | none => rfl
  | some o =>
    obtain ⟨sequence, kind, incoming, _, _, _⟩ := o
    cases kind with
    | switchTask => cases incoming <;> rfl
    | continueTask => rfl

/-- PEER_DOWN becomes pending, spelled out, if the lost port was ENABLED (R179, R181). -/
theorem raisePeerDown_eq (r : PortRecord) (q : Port) (u : State) :
    (if r.isEnabled then u.raise q .peerDown else u) =
      if r.lifecycle = .enabled then
        u.updPort q fun r =>
          { r with unit := { r.unit with intp := if r.prst then r.unit.intp else r.unit.intp ||| 0b0100 } }
      else u := by
  simp only [PortRecord.isEnabled_iff, raise_eq, Cause.mask]

/-- The end of a loss does not reach the lost port, which is DISABLED and IDLE (R181). -/
theorem endLoss_port (disabled : (s.port p).lifecycle = .disabled) (idle : (s.port p).occ.occupant = none) (on : Bool)
    (offer : Option Offer) (must : Bool) : (endLoss (otherPort p) on offer must s).port p = s.port p := by
  have raised : (if on then s.raise (otherPort p) .peerDown else s).port p = s.port p := by
    split
    · cases p <;> rfl
    · rfl
  have displaced := (displace_frame (removedIncoming offer) (if on then s.raise (otherPort p) .peerDown else s)).ports
  have still {u : State} (framed : PortsFramed (if on then s.raise (otherPort p) .peerDown else s) u) : u.port p = s.port p := by
    rw [(framed.port p).idle (by rw [raised, disabled]) (by rw [raised, idle]), raised]
  rw [endLoss_eq]
  split
  · exact still displaced.serve
  · exact still displaced

/-! ### What the occupant becomes (R180) -/

theorem losePortWhole_of_idle (idle : (s.port p).occ.occupant = none) :
    losePortWhole p s = endLoss (otherPort p) (s.port p).isEnabled (s.port p).occ.offer false (shutPort p s) := by
  rw [losePortWhole_eq, idle]

theorem losePortWhole_of_doomed (occupied : (s.port p).occ.occupant = some x) (doomed : (s.task x).doomed = true) :
    losePortWhole p s =
      endLoss (otherPort p) (s.port p).isEnabled (s.port p).occ.offer (s.ownsRun x) (freeSlot x (shutPort p s)) := by
  rw [losePortWhole_eq, occupied]
  exact if_pos doomed

theorem losePortWhole_of_alive (occupied : (s.port p).occ.occupant = some x) (alive : (s.task x).doomed = false) :
    losePortWhole p s =
      endLoss (otherPort p) (s.port p).isEnabled (s.port p).occ.offer
        ((s.port p).occ.disposition == some .wait && s.isPageHead x)
        (loseOccupant x (s.port p).occ.disposition (shutPort p s)) := by
  rw [losePortWhole_eq, occupied]
  exact if_neg (by rw [alive]; exact Bool.false_ne_true)

theorem losePortWhole_of_no_wait (occupied : (s.port p).occ.occupant = some x) (alive : (s.task x).doomed = false)
    (no_wait : (s.port p).occ.disposition ≠ some .wait) :
    losePortWhole p s =
      endLoss (otherPort p) (s.port p).isEnabled (s.port p).occ.offer false ((shutPort p s).updTask x TaskRecord.portLost) := by
  rw [losePortWhole_of_alive occupied alive, beq_false_of_ne no_wait, Bool.false_and, loseOccupant_other x _ no_wait]

/-- The wait of a departing occupant is cancelled with delivery LOST; the hold is that of the loss (R180). -/
theorem losePortWhole_of_wait (occupied : (s.port p).occ.occupant = some x) (alive : (s.task x).doomed = false)
    (waits : (s.port p).occ.disposition = some .wait) :
    losePortWhole p s =
      endLoss (otherPort p) (s.port p).isEnabled (s.port p).occ.offer (s.isPageHead x)
        (((leaveWait x (shutPort p s)).updTask x fun r => { r with wait := none, delivery := some .lost }).updTask x
          TaskRecord.portLost) := by
  rw [losePortWhole_of_alive occupied alive, waits, beq_self_eq_true, Bool.true_and, loseOccupant_wait, cancelWait,
    updTask_updTask, updTask_updTask]
  rfl

theorem State.isPageHead_iff : s.isPageHead x = true ↔ s.pool.waitQueue.head? = some x := by
  rw [State.isPageHead, beq_iff_eq]

/-- The lost port's own records are those that the loss began with (R180). -/
theorem losePortWhole_port (p : Port) (s : State) : (losePortWhole p s).port p = (shutPort p s).port p := by
  have here := (shutPort_port p s p).trans (if_pos rfl)
  have ended {u : State} (framed : PortsFramed (shutPort p s) u) (on : Bool) (offer : Option Offer) (must : Bool) :
      (endLoss (otherPort p) on offer must u).port p = (shutPort p s).port p := by
    have same : u.port p = (shutPort p s).port p := (framed.port p).idle (by rw [here]) (by rw [here]; rfl)
    rw [endLoss_port (by rw [same, here]) (by rw [same, here]; rfl), same]
  cases occupied : (s.port p).occ.occupant with
  | none =>
    rw [losePortWhole_of_idle occupied]
    exact ended (.refl _) _ _ _
  | some x =>
    cases doomed : (s.task x).doomed with
    | true =>
      rw [losePortWhole_of_doomed occupied doomed]
      exact ended (freeSlot_objects x _).ports _ _ _
    | false =>
      rw [losePortWhole_of_alive occupied doomed]
      exact ended (loseOccupant_ports x _ _) _ _ _

/-- Settles O51: the end of the loss in the statement's words, then what the loss makes of the occupant. -/
theorem lossOfAPort : Obligations.LossOfAPort := by
  intro p s old shut peer freed held
  have ended {must : Bool} {c : Prop} [Decidable c] (serves : must = true ↔ c) (u : State) :
      endLoss (otherPort p) old.isEnabled old.occ.offer must u = if c then serve (freed (peer u)) else freed (peer u) := by
    have down : (if old.isEnabled then u.raise (otherPort p) .peerDown else u) = peer u := raisePeerDown_eq _ _ _
    have incoming : displace (removedIncoming old.occ.offer) (peer u) = freed (peer u) := displace_removedIncoming _ _
    rw [endLoss_eq, down, incoming, if_congr serves rfl rfl]
  have unserved (u : State) : endLoss (otherPort p) old.isEnabled old.occ.offer false u = freed (peer u) :=
    (ended (iff_of_false Bool.false_ne_true id) u).trans (if_neg id)
  refine ⟨losePortWhole_port p s, fun idle => ?_, fun x occupied => ⟨fun doomed => ?_, fun alive no_wait => ?_, fun alive waits => ?_⟩⟩
  · exact (losePortWhole_of_idle idle).trans (unserved _)
  · exact (losePortWhole_of_doomed occupied doomed).trans (ended State.ownsRun_iff _)
  · exact (losePortWhole_of_no_wait occupied alive no_wait).trans (unserved _)
  · exact (losePortWhole_of_wait occupied alive waits).trans (ended State.isPageHead_iff _)

/-! ### The port commands and PRST (R178, R179) -/

theorem PortRecord.not_enabled {r : PortRecord} (disabled : r.lifecycle = .disabled) : ¬r.isEnabled = true := by
  rw [PortRecord.isEnabled_iff, disabled]
  exact nofun

/-- What the unit held is lost with the port, the data lines apart, so a completion leaves no trace (R180; log entry 17). -/
theorem losePortWhole_updUnit {f : PortUnit → PortUnit} (data : (f (s.port p).unit).dataOut = (s.port p).unit.dataOut) :
    losePortWhole p (s.updUnit p f) = losePortWhole p s := by
  have shut : shutPort p (s.updUnit p f) = shutPort p s := by
    rw [shutPort, State.updUnit, State.updPort_updPort]
    refine State.updPort_congr ?_
    simp only [PortUnit.lost, data]
  have port : (s.updUnit p f).port p = { s.port p with unit := f (s.port p).unit } := (State.updUnit_port s p p f).trans (if_pos rfl)
  rw [losePortWhole_eq, losePortWhole_eq p s, shut, port]
  simp only [PortRecord.isEnabled, State.updUnit_task, State.ownsRun, State.isPageHead, State.updUnit_pool]

theorem losePortWhole_completed (p : Port) (code : Byte) (bytes : List Byte) (s : State) :
    losePortWhole p (s.completed p code bytes) = losePortWhole p s := by
  have unit : s.completed p code bytes = s.updUnit p fun u =>
      { u with
        command := none, res := code, results := bytes
        intp := if (s.port p).prst then u.intp else u.intp ||| 0b0010 } := State.updPort_congr rfl
  rw [unit, losePortWhole_updUnit rfl]

theorem exec_portEnable (h : s.Submitted p .portEnable []) :
    ((s.port p).lifecycle = .enabled → exec (.portEnable p) s = .next (s.completed p 0x15 [])) ∧
      ((s.port p).lifecycle = .disabled → exec (.portEnable p) s = .next ((enablePort p s).completed p 0x00 [])) := by
  refine ⟨fun enabled => ?_, fun disabled => ?_⟩ <;> rw [exec]
  · refine command_refuses (r := .wrongState) h ?_
    exact if_pos (PortRecord.isEnabled_iff.2 enabled)
  · refine command_carriesOut h ?_
    exact if_neg (PortRecord.not_enabled disabled)

theorem exec_portDrop (h : s.Submitted p .portDrop []) :
    ((s.port p).lifecycle = .disabled → exec (.portDrop p) s = .next (s.completed p 0x15 [])) ∧
      ((s.port p).lifecycle = .enabled → exec (.portDrop p) s = .next (losePortWhole p s)) := by
  refine ⟨fun disabled => ?_, fun enabled => ?_⟩ <;> rw [exec]
  · refine take_refuses (r := .wrongState) h ?_
    exact if_neg (PortRecord.not_enabled disabled)
  · rw [execPortDrop, take_of_submitted h]
    simp only [if_pos (PortRecord.isEnabled_iff.2 enabled), complete_done, losePortWhole_completed]

theorem exec_peerDrop (h : s.Submitted p .peerDrop []) :
    ((s.port (otherPort p)).lifecycle = .disabled → exec (.peerDrop p) s = .next (s.completed p 0x15 [])) ∧
      ((s.port (otherPort p)).lifecycle = .enabled →
        exec (.peerDrop p) s = .next ((losePortWhole (otherPort p) s).completed p 0x00 [])) := by
  refine ⟨fun disabled => ?_, fun enabled => ?_⟩ <;> rw [exec]
  · refine command_refuses (r := .wrongState) h ?_
    exact if_neg (PortRecord.not_enabled disabled)
  · refine command_carriesOut h ?_
    exact if_pos (PortRecord.isEnabled_iff.2 enabled)

/-- Settles O50: the two PRST rows are the model's own words. -/
theorem portCommandsAndPrst : Obligations.PortCommandsAndPrst := by
  refine fun p s => ⟨fun h => ⟨(exec_portEnable h).1, fun disabled => ?_⟩, exec_portDrop, exec_peerDrop, rfl, rfl⟩
  rw [(exec_portEnable h).2 disabled, enablePort, raise_eq]
  rfl

/-! ### Device reset and RST (R129, R143, R183) -/

theorem exec_deviceReset (h : s.Submitted p .deviceReset []) :
    ((s.port (otherPort p)).lifecycle = .enabled → exec (.deviceReset p) s = .next (s.completed p 0x2A [])) ∧
      ((s.port (otherPort p)).lifecycle = .disabled → exec (.deviceReset p) s = .next (deviceReset s)) := by
  refine ⟨fun enabled => ?_, fun disabled => ?_⟩ <;> rw [exec]
  · refine take_refuses (r := .peerActive) h ?_
    exact if_pos (PortRecord.isEnabled_iff.2 enabled)
  · rw [execDeviceReset, take_of_submitted h]
    simp only [if_neg (PortRecord.not_enabled disabled)]

/-- After the release of RST each line takes its level from its next sample (R143). -/
theorem exec_rstRelease_of_asserted (asserted : s.rst = true) :
    ∃ u, exec .rstRelease s = .next u ∧
      u = { s with rst := false, time := { s.time with baseDivider := 0, intervalCounter := 0 }, lines := u.lines } ∧
      ∀ l, u.line l = { s.line l with sampled := false, pendingCount := false } := by
  rw [exec, execRstRelease, if_pos asserted]
  exact ⟨_, rfl, rfl, fun l => by simp [State.line]⟩

theorem exec_rstRelease_of_released (released : s.rst = false) : exec .rstRelease s = .next s :=
  if_neg (by rw [released]; exact Bool.false_ne_true)

/-- Settles O52: the statement's reset state is that of the model. -/
theorem deviceResetAndRst : Obligations.DeviceResetAndRst :=
  fun _ => ⟨fun _ => exec_deviceReset, rfl, exec_rstRelease_of_asserted, exec_rstRelease_of_released⟩

/-! ### The laws after reset (R183) -/

/-- The reset state is what device reset makes of it, so it meets the laws as every state after device reset does. -/
theorem reset_lawful : State.reset.Lawful := deviceReset_lawful State.reset

/-- Settles O60. -/
theorem resetMeetsTheLaws : Obligations.ResetMeetsTheLaws := by
  have lawful := reset_lawful
  exact ⟨lawful.ports, lawful.exchanges, lawful.cells, lawful.lines, lawful.ticks, lawful.dispatcher, lawful.urgency,
    lawful.affinity, lawful.timers, lawful.timerOrder, lawful.waits, lawful.filters, lawful.pool, lawful.headBlocked,
    lawful.doomed, lawful⟩

end

end Sys2Proof.Machine
